-- ==== Sys2Proof/Word.lean ====
section
/-! DEFINITION. The machine words of the part: bytes and the wider fields built from them. -/

namespace Sys2Proof

/-- A character's data, a byte of a block, of a context or of the restore area. -/
abbrev Byte := BitVec 8

/-- A 16-bit field. -/
abbrev Half := BitVec 16

/-- A 32-bit register or field. -/
abbrev Word := BitVec 32

/-- A host-memory address. -/
abbrev Dword := BitVec 64

end Sys2Proof
end

