-- ==== Sys2Proof/Config.lean ====
section
/-! DEFINITION. What the part's name fixes: how many units, feeds, lines and images it has, and its clock ratios. -/

namespace Sys2Proof

namespace Config

/-- EK832 has 32 unit entries (section 1.1 of 00). -/
abbrev units : Nat := 32

/-- Switched feeds (R79). -/
abbrev feeds : Nat := 16

/-- Unit lines (section 1.1 of 00). -/
abbrev lines : Nat := 8

/-- Image directory entries (R145). -/
abbrev images : Nat := 16

/-- Reference clocks in one tick (R1). -/
abbrev clocksPerTick : Nat := 4096

/-- Ticks in one second of uptime (R2). -/
abbrev ticksPerSecond : Nat := 4000

end Config

/-- A unit entry, 0 to 31. -/
abbrev UnitIx := Fin Config.units

/-- A switched feed, 0 to 15. -/
abbrev FeedIx := Fin Config.feeds

/-- A unit line, 0 to 7. -/
abbrev LineIx := Fin Config.lines

/-- An image directory entry, 0 to 15. -/
abbrev ImageIx := Fin Config.images

end Sys2Proof
end

