-- ==== Sys2Proof/Syntax.lean ====
section
/-! DEFINITION. The commands of the part: one constructor per row of spec/opcode_table.json. -/

namespace Sys2Proof

/-- The two bus-master paths (R174). -/
inductive BusPath where
  | read
  | write
  deriving DecidableEq, Repr

/-- Samples of RXD_n that follow one another and read the same level; `true` is high (R107). -/
structure SampleRun where
  level : Bool
  count : Nat
  deriving DecidableEq, Repr

/-- A moment of a line that samples of RXD_n lead to: `clk` reference clocks since the moment before, and the samples
that the receiver took since the latest event of the line that brought samples, oldest first (R107, logs 6 and 7). -/
structure SampledMoment where
  clk : Nat
  samples : List SampleRun
  deriving DecidableEq, Repr

/-- A command: an operation or event of spec/opcode_table.json with what comes in with it.

`clk` of a line event is the number of reference clocks since the moment before it
(the previous command that carries one, or the previous tick); see log 6.
`lanes` are the bytes of a register that a bus access covers (R172). -/
inductive Instr where
  /-- POWER_ON_RESET (R24). -/
  | powerOnReset
  /-- LINK_RESET (R207). -/
  | linkReset
  /-- TICK (R1), with the levels sampled on LINE_OK and on FAULT_15 to FAULT_0 (low is active). -/
  | tick (lineOk : Bool) (fault : BitVec 16)
  /-- UPTIME_SECOND (R2). -/
  | uptimeSecond
  /-- GAP_DECLARED (R10). -/
  | gapDeclared
  /-- SHED_COMMAND (R12). -/
  | shedCommand
  /-- SETTLING_END (R15). -/
  | settlingEnd
  /-- MAIN_SWITCH_ON (R85). -/
  | mainSwitchOn (f : FeedIx)
  /-- FEED_REACHED_ON (R85). -/
  | feedReachedOn (f : FeedIx)
  /-- COOLDOWN_END (R89). -/
  | cooldownEnd (f : FeedIx)
  /-- PROVING_TIME_REACHED (R90). -/
  | provingTimeReached (f : FeedIx)
  /-- BOOT_TIMEOUT (R60). -/
  | bootTimeout (u : UnitIx)
  /-- ATTEND_TIMER_EXPIRY (R60). -/
  | attendTimerExpiry (u : UnitIx)
  /-- POLL_TIMER_EXPIRY (R68). -/
  | pollTimerExpiry (u : UnitIx)
  /-- SWEEP_TIMER_EXPIRY (R181). -/
  | sweepTimerExpiry
  /-- COMPLETION_TIMEOUT (R174). -/
  | completionTimeout (path : BusPath)
  /-- BUS_ERROR_COMPLETION (R174). -/
  | busErrorCompletion (path : BusPath)
  /-- READ_BURST_SEND (R175); `sendable` is false where the bus port reports that it cannot send (R174). -/
  | readBurstSend (sendable : Bool)
  /-- SWEEP_BURST_COMPLETE (R183), with the bytes read. -/
  | sweepBurstComplete (data : List Byte)
  /-- ADOPTING_SWEEP_BURST_COMPLETE (R179), with the bytes read. -/
  | adoptingSweepBurstComplete (data : List Byte)
  /-- HEADER_LOAD_COMPLETE (R188), with the 256 bytes read. -/
  | headerLoadComplete (data : List Byte)
  /-- FETCH_COMPLETE (R165), with the block's bytes. -/
  | fetchComplete (data : List Byte)
  /-- WRITE_BEGIN (R191); `sendable` as for READ_BURST_SEND. -/
  | writeBegin (sendable : Bool)
  /-- WRITE_COMPLETE (R191). -/
  | writeComplete
  /-- RUN_START (R202): CONTROL written with `v`, RUN at 1 and RESTART at 0. -/
  | runStart (v : Word)
  /-- RUN_RECOVERY (R204): CONTROL written with `v`, RUN at 1 and RESTART at 0. -/
  | runRecovery (v : Word)
  /-- RUN_STOP (R205): CONTROL written with `v`, RUN and RESTART at 0. -/
  | runStop (v : Word)
  /-- LOAD_HEADER (R187): CONTROL written with `v`, LOAD_HEADER at 1 and RESTART at 0. -/
  | loadHeader (v : Word)
  /-- RESTART (R206): CONTROL written with `v`, RESTART at 1. -/
  | restart (v : Word)
  /-- ACK_MODE (R196): CONTROL written with `v`, RESTART at 0. -/
  | ackMode (v : Word)
  /-- CHANGE_IE (R200): CONTROL written with `v`, RESTART at 0. -/
  | changeIe (v : Word)
  /-- STATE_IE (R200): CONTROL written with `v`, RESTART at 0. -/
  | stateIe (v : Word)
  /-- SWEEP (R182), with the value written. -/
  | sweep (v : Word)
  /-- CHANGE_READ (R195). -/
  | changeRead (lanes : BitVec 4)
  /-- CHANGE_WRITE (R196). -/
  | changeWrite (v : Word)
  /-- STATE_WRITE (R198). -/
  | stateWrite (v : Word)
  /-- REGISTER_WRITE (R172): any write of the window, at a byte offset of its 4 KiB. -/
  | registerWrite (offset : BitVec 12) (lanes : BitVec 4) (v : Word)
  /-- FRAME_TRANSMITTED (R106). -/
  | frameTransmitted (k : LineIx) (clk : Nat)
  /-- PAUSE_END (R106). -/
  | pauseEnd (k : LineIx) (clk : Nat)
  /-- QUIET_BREAK_HALF_END (R118). -/
  | quietBreakHalfEnd (k : LineIx) (clk : Nat)
  /-- QUIET_END (R118). -/
  | quietEnd (k : LineIx) (clk : Nat)
  /-- CHARACTER_RECEIVED (R107, R109): the 160 samples from the confirmed start bit to the middle of the stop bit. -/
  | characterReceived (k : LineIx) (clk : Nat) (samples : List SampleRun)
  /-- BREAK_RECEIVED (R107, R110): the ten bits after the start bit all read low. -/
  | breakReceived (k : LineIx) (clk : Nat)
  /-- FRAME_RECEIVED (R116). -/
  | frameReceived (k : LineIx)
  /-- FIRST_REPLY_TIMEOUT (R112). -/
  | firstReplyTimeout (k : LineIx) (clk : Nat)
  /-- INTER_CHARACTER_TIMEOUT (R114). -/
  | interCharacterTimeout (k : LineIx) (clk : Nat)
  /-- DISCARD_END (R115). -/
  | discardEnd (k : LineIx) (clk : Nat)
  /-- HIGH_TIMER_EXPIRY (R111). -/
  | highTimerExpiry (k : LineIx) (moment : SampledMoment)
  /-- ARBITER_CHOICE (R136). -/
  | arbiterChoice (k : LineIx)
  /-- START_BIT_CONFIRMED (R107): the last of the samples is the eighth after the fall. -/
  | startBitConfirmed (k : LineIx) (moment : SampledMoment)
  deriving DecidableEq, Repr

end Sys2Proof
end

