-- ==== Sys2Proof/Machine/State.lean ====
section
/-! DEFINITION. The state of the part as plain data: every register, timer, count, list and buffer the spec gives it,
with its reset values, and the queue of commands that are waiting. -/

namespace Sys2Proof

namespace Machine

/-- Why the part could stop with a fault. No meaning raises one: a failed bus access, a faulty line and a tripped feed
are effects of commands on State (log 2). -/
inductive Fault where
  /-- Raised by nobody; safe. -/
  | neverRaised
  deriving DecidableEq, Repr

/-- Why a command could have no meaning. -/
inductive Refusal where
  /-- Raised only by an arm of `exec` whose command has no meaning yet; there is none; safe. -/
  | notModelled (mnemonic : String)
  deriving DecidableEq, Repr

/-! ### Tick Generator -/

/-- The Tick Generator (R1, R2). -/
structure Clock where
  /-- Reference clocks since the last tick, 0 to 4095 (R1). -/
  prescaler : Nat
  /-- Ticks of the present second, 0 to 3999 (R2). -/
  seconds : Nat
  /-- Seconds since power-on reset (R2). -/
  uptime : Word
  deriving DecidableEq, Repr

/-! ### Supply Monitor -/

/-- The supply state (R5). -/
inductive SupplyState where
  | startup
  | up
  | pending
  | gap
  | settling
  deriving DecidableEq, Repr

/-- The LINE_OK filter (R3, R4); `true` is present. -/
structure SupplyFilter where
  /-- The accepted level, none before the first is accepted. -/
  accepted : Option Bool
  /-- The candidate for the first accepted level (R4). -/
  candidate : Option Bool
  /-- The pending flag (R3). -/
  differing : Bool
  deriving DecidableEq, Repr

/-- What the Supply Monitor captures at the return of the supply (R13). -/
structure Capture where
  duration : Nat
  overRange : Bool
  deriving DecidableEq, Repr

/-- One gap record (R18). -/
structure GapRecord where
  duration : Nat
  overRange : Bool
  merged : Bool
  shed : Bool
  noneCount : Nat
  warmCount : Nat
  coldCount : Nat
  declaredAt : Word
  deriving DecidableEq, Repr

/-- The Supply Monitor (R3 to R25). -/
structure Monitor where
  supply : SupplyState
  filter : SupplyFilter
  gapCounter : Nat
  settleTimer : Nat
  capture : Option Capture
  merged : Bool
  shed : Bool
  declaredAt : Word
  flickers : Nat
  gapList : List GapRecord
  deriving DecidableEq, Repr

/-! ### Settings -/

/-- One line configuration of the header (R102). -/
structure LineConfig where
  divisor : Nat
  firstReply : Nat
  gapLimit : Nat
  deriving DecidableEq, Repr

/-- The header settings in force, but for the budget, which the Feed Controller holds (R188). -/
structure Settings where
  sweepInterval : Nat
  minGap : Nat
  shedTime : Nat
  settle : Nat
  derate : Nat
  guard : Nat
  attendInterval : Nat
  pollInterval : Nat
  missLimit : Nat
  provingTime : Nat
  retryLimit : Nat
  lines : Vector LineConfig Config.lines
  deriving DecidableEq, Repr

/-! ### Unit records -/

/-- A unit kind, and the 0 of a cleared record, which is no kind (section 11.10). -/
inductive UnitKind where
  | unset
  | door
  | display
  deriving DecidableEq, Repr

/-- A context: 32 bytes the part moves in order (R210). -/
abbrev Context := Vector Byte 32

/-- The latched configuration (R26, R27). -/
structure UnitConfig where
  kind : UnitKind
  line : LineIx
  address : BitVec 4
  feed : FeedIx
  priority : Nat
  groupTag : Byte
  image : ImageIx
  ride : Nat
  retain : Nat
  bootTimeout : Nat
  deriving DecidableEq, Repr

/-- The latched image entry (R29). -/
structure LatchedImage where
  index : ImageIx
  address : Dword
  length : Nat
  sizeCode : Nat
  blockCount : Nat
  crc : Word
  kind : UnitKind
  edition : Half
  deriving DecidableEq, Repr

/-- The run states (section 3.1). -/
inductive RunState where
  | unmanaged
  | probing
  | running
  | held
  | riding
  | waitFeed
  | checking
  | attending
  | loading
  | verifying
  | restoring
  | failed
  deriving DecidableEq, Repr

/-- A class (R22): NONE, the unit rode through; WARM; COLD. -/
inductive GapClass where
  | rode
  | warm
  | cold
  deriving DecidableEq, Repr

/-- The origin of the run class (R35). -/
inductive Origin where
  | classified
  | derived
  deriving DecidableEq, Repr

/-- The unit requests (section 11.10). -/
inductive UnitRequest where
  | enlist
  | retire
  | reload
  | contextEdit
  | releaseDoor
  deriving DecidableEq, Repr

/-- A request held in flight (R72). -/
structure InFlight where
  request : UnitRequest
  tag : Byte
  deriving DecidableEq, Repr

/-- The answer codes (section 11.10). -/
inductive AnswerCode where
  | blank
  | done
  | refusedState
  | refusedBusy
  | refusedBad
  | stale
  | cut
  | cancelled
  | failed
  | faultActive
  deriving DecidableEq, Repr

/-- The failure causes (R71, section 11.10). -/
inductive FailureCause where
  | blank
  | noReply
  | damaged
  | blockRejected
  | imageBad
  | imageChanged
  | area
  | lineFault
  | bootTimeout
  | protocol
  deriving DecidableEq, Repr

/-- What a CONTEXT_PUT is posted for (R66, R70, R76). -/
inductive PutPurpose where
  | restore
  | pendingEdit
  | edit
  | release
  deriving DecidableEq, Repr

/-- The line work a run posts (R130, R134). -/
inductive Work where
  /-- HELLO_ASK, a single attempt. -/
  | hello
  /-- The poll's STATUS_ASK, a single attempt. -/
  | poll
  /-- The STATUS_ASK of CHECKING and of a probe's RESTORING. -/
  | status
  /-- A CONTEXT_PUT. -/
  | put (purpose : PutPurpose)
  /-- Begin work (R149). -/
  | beginLoad
  /-- The IMAGE_BEGIN of a load alone (R152). -/
  | imageBegin
  /-- The next IMAGE_BLOCK of a load alone (R153). -/
  | block
  /-- The IMAGE_END of a load (R154, R161). -/
  | imageEnd
  deriving DecidableEq, Repr

/-- The load steps (R148); `idle` where the unit is at none. -/
inductive LoadStep where
  | idle
  | slotWait
  | beginPosted
  | alone
  | member
  | ending
  deriving DecidableEq, Repr

/-- One unit record (R26 to R49) with its run's timers (R50). -/
structure UnitRecord where
  config : UnitConfig
  image : LatchedImage
  forceCold : Bool
  probePending : Bool
  imageValid : Bool
  editPending : Bool
  run : RunState
  runClass : GapClass
  origin : Origin
  /-- none is UNCLASSIFIED. -/
  lastClass : Option GapClass
  pollMisses : Nat
  /-- none is unknown (R34). -/
  bootCount : Option Half
  inFlight : Option InFlight
  answerTag : Byte
  answerCode : AnswerCode
  cause : FailureCause
  misses : Nat
  loads : Nat
  resultEdition : Half
  context : Context
  contextPresent : Bool
  contextSeq : Word
  /-- Each timer is none while it is stopped (R50). -/
  bootTimer : Option Nat
  attendTimer : Option Nat
  pollTimer : Option Nat
  /-- The boot timer expired while an attempt was outstanding (R60). -/
  bootHeld : Bool
  verdicts : Nat
  aloneMark : Bool
  loadStep : LoadStep
  confirmed : Nat
  progressDone : Nat
  progressTotal : Nat
  /-- Work posted while a transaction of the unit is outstanding (R135). -/
  heldWork : Option Work
  deriving DecidableEq, Repr

/-! ### Feeds -/

/-- The feed states (section 4.1). -/
inductive FeedState where
  | off
  | waiting
  | softstart
  | on
  | shed
  | tripped
  | lockedOff
  deriving DecidableEq, Repr

/-- The latch modes (section 11.10). -/
inductive LatchMode where
  | auto
  | latched
  deriving DecidableEq, Repr

/-- The offered configuration of a feed, clamped (R80). -/
structure FeedConfig where
  priority : Nat
  weight : Nat
  precharge : Nat
  settle : Nat
  cooldown : Nat
  tripLimit : Nat
  latchMode : LatchMode
  deriving DecidableEq, Repr

/-- One feed record (R79). -/
structure FeedRecord where
  state : FeedState
  /-- MAIN_n has been switched on in this soft start (R85). -/
  mainOn : Bool
  offered : FeedConfig
  weight : Nat
  precharge : Nat
  settle : Nat
  cooldown : Nat
  tripLimit : Nat
  latchMode : LatchMode
  tripCount : Nat
  lastTrip : Word
  timer : Nat
  proving : Nat
  /-- The fault filter's accepted level is active (R87). -/
  faultActive : Bool
  /-- The fault filter's pending flag (R87). -/
  faultDiffering : Bool
  answerTag : Byte
  answerCode : AnswerCode
  deriving DecidableEq, Repr

/-- The Feed Controller (R79 to R84). -/
structure FeedControl where
  feed : Vector FeedRecord Config.feeds
  admission : List FeedIx
  budget : Nat
  pendingBudget : Option Nat
  deriving DecidableEq, Repr

/-! ### Unit lines -/

/-- The line states (section 5.7). -/
inductive LineState where
  | idle
  | sending
  | awaiting
  | receiving
  | quiet
  | faulted
  | stopped
  deriving DecidableEq, Repr

/-- The kinds the part sends (R138). -/
inductive RequestKind where
  | helloAsk
  | statusAsk
  | contextPut
  | imageBegin
  | imageBlock
  | blockAsk
  | imageEnd
  deriving DecidableEq, Repr

/-- A frame the part sends (R104). -/
structure TxFrame where
  address : BitVec 4
  kind : RequestKind
  seq : Byte
  payload : List Byte
  replyExpected : Bool
  /-- The pause after a frame that expects no reply, in character times. -/
  pause : Nat
  deriving DecidableEq, Repr

/-- A received character without the break flag, with its status (R107). -/
structure RxChar where
  data : Byte
  parity : Bool
  framing : Bool
  overrun : Bool
  deriving DecidableEq, Repr

/-- The receiver between characters (R107). -/
inductive Hunt where
  /-- RXD_n has not read high since the receiver began to sample, or since a low stop bit. -/
  | waitHigh
  /-- The latest sample read high, or dropped a candidate. -/
  | high
  /-- A candidate start bit, with the samples taken since the fall. -/
  | candidate (seen : Nat)
  deriving DecidableEq, Repr

/-- The character or break still on the wire after a frame or a QUIET was cut (R110, R120, R122): the levels of its bits,
the reference clocks of one of them, and the clocks of it that are left, 0 where nothing is left to send. -/
structure Tail where
  levels : List Bool
  bit : Nat
  left : Nat
  deriving DecidableEq, Repr

/-- The frame assembler (R113, R115, R116). -/
inductive Assembly where
  /-- No character of a frame has been taken. -/
  | idle
  /-- The characters taken of a frame, in order, none of them damaged so far. -/
  | collecting (bytes : List Byte)
  /-- A clean frame, held for the transaction layer. -/
  | held (bytes : List Byte)
  /-- The discard of a damaged frame, with the characters taken since the frame's first. -/
  | discarding (taken : Nat)
  deriving DecidableEq, Repr

/-- The kind of a failed attempt (R123). -/
inductive Failure where
  | noReply
  | damaged
  | lineFault
  | blockBad
  deriving DecidableEq, Repr

/-- What is kept of an attempt whose frame was begun (R126): its sequence byte and, for a STATUS_ASK and a CONTEXT_PUT,
the context sequence and the stored context at that moment. -/
structure Attempt where
  seq : Byte
  recorded : Option (Word × Context)
  deriving DecidableEq, Repr

/-- The contender of a transaction (R123): a unit with its work, or the group, acting for one member or, with none,
for the frame to address 15. -/
inductive Contender where
  | single (u : UnitIx) (work : Work)
  | group (target : Option UnitIx)
  deriving DecidableEq, Repr

/-- The transaction record (R123). -/
structure Transaction where
  contender : Contender
  kind : RequestKind
  address : BitVec 4
  /-- The block index an IMAGE_BLOCK or BLOCK_ASK names. -/
  block : Nat
  limit : Nat
  made : Nat
  lastFailure : Option Failure
  attempts : List Attempt
  deriving DecidableEq, Repr

/-- A wait list entry (R134). -/
inductive Entry where
  | single (u : UnitIx) (work : Work)
  | group
  deriving DecidableEq, Repr

/-- The phases of a group (R155). -/
inductive Phase where
  | begin
  | blocks
  | repair
  | ending
  deriving DecidableEq, Repr

/-- A group member with its missed list and silence count (R155, R158). -/
structure Member where
  unit : UnitIx
  missed : List Nat
  silence : Nat
  deriving DecidableEq, Repr

/-- The group record (R155). -/
structure Group where
  members : List Member
  tag : Byte
  image : LatchedImage
  phase : Phase
  block : Nat
  /-- A round is under way. -/
  inRound : Bool
  /-- The steps of the round not yet made: the group frame (none) or the exchange with a member. -/
  todo : List (Option UnitIx)
  deriving DecidableEq, Repr

/-- The transfer slot (R148). -/
inductive Slot where
  | free
  | alone (u : UnitIx)
  | group (g : Group)
  deriving DecidableEq, Repr

/-- A block held in a buffer (R164). -/
structure Block where
  index : Nat
  data : List Byte
  deriving DecidableEq, Repr

/-- One Line Controller with its transaction layer and its transfer slot. -/
structure LineRecord where
  state : LineState
  /-- SENDING is in the pause after a frame that expects no reply (R106). -/
  pausing : Bool
  /-- QUIET is in its idle half (R118). -/
  idleHalf : Bool
  quietOwed : Bool
  /-- The frame of the attempt on the line. -/
  frame : Option TxFrame
  /-- The attempt on the line has been abandoned (R119). -/
  abandoned : Bool
  seqCounter : Byte
  fifo : List RxChar
  /-- A character waiting in the shift register (R108). -/
  shift : Option RxChar
  /-- A character is being received, and whether it will carry the overrun flag (R108). -/
  receiving : Option Bool
  /-- Where the receiver stands with the next start bit (R107). -/
  hunt : Hunt
  /-- Reference clocks since the latest sample of RXD_n that an event brought (R107, log 7). -/
  rxClock : Nat
  tail : Tail
  assembly : Assembly
  /-- Reference clocks since the transmission, the pause or the half of QUIET began (R106, R118). -/
  phaseTimer : Nat
  firstReply : Option Nat
  interChar : Option Nat
  silence : Option Nat
  high : Option Nat
  latched : LineConfig
  strays : Nat
  damaged : Nat
  overruns : Nat
  faults : Nat
  txn : Option Transaction
  waitList : List Entry
  slot : Slot
  buffer0 : Option Block
  buffer1 : Option Block
  /-- The running CRC-32, before its final inversion; none where none is kept (R166). -/
  crc : Option Word
  /-- The block the transfer's next work waits for. -/
  waitBlock : Option Nat
  deriving DecidableEq, Repr

/-! ### Image Fetch, the sweep engine, the queue and the bus paths -/

/-- An entry of the directory copy, as read (R145). -/
structure DirectoryEntry where
  address : Dword
  length : Word
  crc : Word
  edition : Half
  sizeCode : Byte
  kindCode : Byte
  deriving DecidableEq, Repr

/-- A request of the fetch list (R164, R165). -/
structure FetchRequest where
  line : LineIx
  block : Nat
  /-- The buffer it will fill: buffer 1 where set. -/
  second : Bool
  firstPass : Bool
  address : Dword
  length : Nat
  deriving DecidableEq, Repr

/-- The user of a read burst (R174). -/
inductive ReadUser where
  | header
  | sweep (burst : Nat)
  | adopting (burst : Nat)
  /-- A fetch, with whether its line's slot is still held (R165). -/
  | fetch (r : FetchRequest) (wanted : Bool)
  deriving DecidableEq, Repr

/-- The outstanding read burst (R174). -/
structure ReadBurst where
  user : ReadUser
  /-- Its user has not ended; a burst that is not live has no completion timer and no effect (R174). -/
  live : Bool
  timer : Nat
  address : Dword
  length : Nat
  deriving DecidableEq, Repr

/-- An item of the area write queue (R177). -/
inductive Item where
  | unitResult (u : UnitIx)
  | feedStatus (f : FeedIx)
  | gapList
  | headerStatus
  deriving DecidableEq, Repr

/-- The outstanding write of an item (R174, R191): the bytes sent, with the address of each run of them. -/
structure ItemWrite where
  item : Item
  live : Bool
  timer : Nat
  writes : List (Dword × List Byte)
  deriving DecidableEq, Repr

/-- A job of the sweep engine, with the index of its next or outstanding burst (R180, R183). -/
inductive Job where
  | header
  | sweep (burst : Nat)
  | adopting (burst : Nat)
  deriving DecidableEq, Repr

/-- The controller modes (R199). -/
inductive Mode where
  | stopped
  | running
  | areaFault
  deriving DecidableEq, Repr

/-- What the runs, the lines and Image Fetch act on: the unit records, the lines, the directory copy and suspect
marks, the fetch list and read path, and the area write queue with the mode that governs it. -/
structure Runtime where
  units : Vector UnitRecord Config.units
  lines : Vector LineRecord Config.lines
  directory : Vector DirectoryEntry Config.images
  /-- The edition a suspect mark was set for, or none for a clear mark (R167). -/
  suspect : Vector (Option Half) Config.images
  fetchList : List FetchRequest
  read : Option ReadBurst
  queue : List Item
  mode : Mode
  settings : Settings
  deriving DecidableEq, Repr

/-- The rest of the Area Port: registers, notices, start and recovery, the sweep engine, tags and the write path. -/
structure Port where
  areaLow : Word
  areaHigh : Word
  base : Dword
  starting : Bool
  recovering : Bool
  startItems : Bool
  ackExplicit : Bool
  changeIe : Bool
  stateIe : Bool
  change : Word
  /-- The event bits of STATE, bits 4 to 0 (section 11.2). -/
  events : BitVec 5
  job : Option Job
  sweepWanted : Bool
  headerWanted : Bool
  sweepTimer : Nat
  sweepTimerOn : Bool
  /-- The sweep engine had the previous burst (R175). -/
  engineHadLast : Bool
  adoptedUnit : Vector Byte Config.units
  adoptedFeed : Vector Byte Config.feeds
  adoptedEdition : Half
  write : Option ItemWrite
  /-- What the latest register read returned on the bus (the model's own field, log 25). -/
  readData : Word
  deriving DecidableEq, Repr

/-- A step that the latest tick's comparisons found due (log 3). -/
inductive Due where
  | uptimeSecond
  | gapDeclared
  | shedCommand
  | settlingEnd
  | mainSwitchOn (f : FeedIx)
  | feedReachedOn (f : FeedIx)
  | cooldownEnd (f : FeedIx)
  | provingTimeReached (f : FeedIx)
  | bootTimeout (u : UnitIx)
  | attendTimerExpiry (u : UnitIx)
  | pollTimerExpiry (u : UnitIx)
  | sweepTimerExpiry
  | completionTimeout (path : BusPath)
  deriving DecidableEq, Repr

/-- The state of the part, and the commands that are waiting. -/
structure State where
  clock : Clock
  monitor : Monitor
  feeds : FeedControl
  rt : Runtime
  port : Port
  due : List Due
  pending : List Instr
  deriving DecidableEq, Repr

/-! ### Reset values -/

/-- R1, R2. -/
def Clock.reset : Clock := { prescaler := 0, seconds := 0, uptime := 0 }

/-- R24; the uptime at declaration is log 25's. -/
def Monitor.reset : Monitor :=
  { supply := .startup
    filter := { accepted := none, candidate := none, differing := false }
    gapCounter := 0
    settleTimer := 0
    capture := none
    merged := false
    shed := false
    declaredAt := 0
    flickers := 0
    gapList := [] }

/-- The defaults of R102. -/
def LineConfig.default : LineConfig := { divisor := 4, firstReply := 20, gapLimit := 4 }

/-- The defaults of the header settings (R188). -/
def Settings.default : Settings :=
  { sweepInterval := 20
    minGap := 8
    shedTime := 400
    settle := 200
    derate := 230
    guard := 8
    attendInterval := 40
    pollInterval := 200
    missLimit := 3
    provingTime := 40000
    retryLimit := 3
    lines := Vector.replicate Config.lines LineConfig.default }

/-- A latched configuration with every field 0 (R49). -/
def UnitConfig.zero : UnitConfig :=
  { kind := .unset, line := 0, address := 0, feed := 0, priority := 0, groupTag := 0, image := 0
    ride := 0, retain := 0, bootTimeout := 0 }

/-- A latched image entry with every field 0 (R49). -/
def LatchedImage.zero : LatchedImage :=
  { index := 0, address := 0, length := 0, sizeCode := 0, blockCount := 0, crc := 0, kind := .unset, edition := 0 }

/-- 32 zero bytes (R49). -/
def Context.zero : Context := Vector.replicate 32 0

/-- A unit record at reset (R49, R50, R168, R171). -/
def UnitRecord.reset : UnitRecord :=
  { config := UnitConfig.zero
    image := LatchedImage.zero
    forceCold := false
    probePending := false
    imageValid := false
    editPending := false
    run := .unmanaged
    runClass := .rode
    origin := .derived
    lastClass := none
    pollMisses := 0
    bootCount := none
    inFlight := none
    answerTag := 0
    answerCode := .blank
    cause := .blank
    misses := 0
    loads := 0
    resultEdition := 0
    context := Context.zero
    contextPresent := false
    contextSeq := 0
    bootTimer := none
    attendTimer := none
    pollTimer := none
    bootHeld := false
    verdicts := 0
    aloneMark := false
    loadStep := .idle
    confirmed := 0
    progressDone := 0
    progressTotal := 0
    heldWork := none }

/-- The offered configuration after reset (section 4.9). -/
def FeedConfig.reset : FeedConfig :=
  { priority := 0, weight := 1, precharge := 1, settle := 2, cooldown := 1, tripLimit := 1, latchMode := .latched }

/-- A feed record at reset (R100); the answer fields are log 19's, and a trip value of 0 for the latch mode is code 0,
AUTO. -/
def FeedRecord.reset : FeedRecord :=
  { state := .off
    mainOn := false
    offered := FeedConfig.reset
    weight := 0
    precharge := 0
    settle := 0
    cooldown := 0
    tripLimit := 0
    latchMode := .auto
    tripCount := 0
    lastTrip := 0
    timer := 0
    proving := 0
    faultActive := false
    faultDiffering := false
    answerTag := 0
    answerCode := .blank }

/-- R100. -/
def FeedControl.reset : FeedControl :=
  { feed := Vector.replicate Config.feeds FeedRecord.reset, admission := [], budget := 8, pendingBudget := none }

/-- Nothing of a cut frame or QUIET is on the wire. -/
def Tail.over : Tail := { levels := [], bit := 0, left := 0 }

/-- A line at reset (R122, R144, R171). -/
def LineRecord.reset : LineRecord :=
  { state := .idle
    pausing := false
    idleHalf := false
    quietOwed := true
    frame := none
    abandoned := false
    seqCounter := 0
    fifo := []
    shift := none
    receiving := none
    hunt := .waitHigh
    rxClock := 0
    tail := Tail.over
    assembly := .idle
    phaseTimer := 0
    firstReply := none
    interChar := none
    silence := none
    high := none
    latched := LineConfig.default
    strays := 0
    damaged := 0
    overruns := 0
    faults := 0
    txn := none
    waitList := []
    slot := .free
    buffer0 := none
    buffer1 := none
    crc := none
    waitBlock := none }

/-- An entry of the directory copy with 0 in every field (R145). -/
def DirectoryEntry.zero : DirectoryEntry :=
  { address := 0, length := 0, crc := 0, edition := 0, sizeCode := 0, kindCode := 0 }

/-- R49, R122, R144, R171, R193, R208. -/
def Runtime.reset : Runtime :=
  { units := Vector.replicate Config.units UnitRecord.reset
    lines := Vector.replicate Config.lines LineRecord.reset
    directory := Vector.replicate Config.images DirectoryEntry.zero
    suspect := Vector.replicate Config.images none
    fetchList := []
    read := none
    queue := []
    mode := .stopped
    settings := Settings.default }

/-- R193, R208; the value on the bus is log 25's. -/
def Port.reset : Port :=
  { areaLow := 0
    areaHigh := 0
    base := 0
    starting := false
    recovering := false
    startItems := false
    ackExplicit := false
    changeIe := false
    stateIe := false
    change := 0
    events := 0
    job := none
    sweepWanted := false
    headerWanted := false
    sweepTimer := 0
    sweepTimerOn := false
    engineHadLast := false
    adoptedUnit := Vector.replicate Config.units 0
    adoptedFeed := Vector.replicate Config.feeds 0
    adoptedEdition := 0
    write := none
    readData := 0 }

/-- The part right after power-on reset, with no command waiting. -/
def State.reset : State :=
  { clock := Clock.reset
    monitor := Monitor.reset
    feeds := FeedControl.reset
    rt := Runtime.reset
    port := Port.reset
    due := []
    pending := [] }

end Machine

end Sys2Proof
end

