-- ==== Sys2Proof/Machine/Limits.lean ====
section
/-! DEFINITION. The limits the rules state, and counting up to them. -/

namespace Sys2Proof

namespace Machine

/-- The greatest value of a 16-bit count or timer that saturates (R6, R9, R36, R37, R50, R79, R121). -/
def limit16 : Nat := 65535

/-- One more, staying at 65535 once there. -/
def satInc (n : Nat) : Nat := min (n + 1) limit16

/-- `n` more, staying at 65535 once there. -/
def satAdd (n k : Nat) : Nat := min (n + k) limit16

/-- One more trip, staying at 255 once there (R79). -/
def satTrip (n : Nat) : Nat := min (n + 1) 255

/-- `x` taken into `lo` to `hi` (section 4.5 of 00). -/
def clampTo (lo hi x : Nat) : Nat := min hi (max lo x)

/-- Records the gap list holds (R19). -/
def gapListLimit : Nat := 8

/-- Characters the receive FIFO holds (R108). -/
def fifoLimit : Nat := 8

/-- The largest payload of a frame a unit can send (R113). -/
def replyPayloadLimit : Nat := 64

/-- The length of the largest frame a unit can send (R115). -/
def discardLimit : Nat := 71

/-- Blocks a missed list holds (R158). -/
def missedLimit : Nat := 16

/-- The silence count that removes a member (R158). -/
def silenceLimit : Nat := 3

/-- Ticks after which a bus access has failed (R174). -/
def completionLimit : Nat := 4

/-- Managed units a line can have (R28). -/
def lineUnitLimit : Nat := 8

/-- The longest image, in bytes (R146). -/
def imageLengthLimit : Nat := 1048576

/-- The most blocks of an image (R146). -/
def blockCountLimit : Nat := 4096

/-- The character times of a half of QUIET, of the pause after a group frame, and of the high level that ends FAULTED
(R111, R130, R118). -/
def twoCharacters : Nat := 2

/-- The bursts of a sweep (R183). -/
def sweepBursts : Nat := 34

/-- The sample after the fall that confirms a start bit or drops it (R107). -/
def candidateSamples : Nat := 8

/-- The samples from a start bit's confirmation to the middle of the stop bit, ten bits later (R107). -/
def characterSamples : Nat := 160

/-- The lead character of a frame (R104). -/
def leadCharacter : Byte := 0xC5

/-- The address of a group frame (R104). -/
def groupAddress : BitVec 4 := 15

/-- Reference clocks of one bit at a divisor (R102). -/
def bitClocks (divisor : Nat) : Nat := 16 * divisor

/-- Reference clocks of one character at a divisor (R102). -/
def charClocks (divisor : Nat) : Nat := 176 * divisor

end Machine

end Sys2Proof
end

