-- ==== Sys2Proof/Machine/Flags.lean ====
section
/-! DEFINITION. What is computed over bits: the bits of a sent character, the samples of a received one and its status,
and the two checks. -/

namespace Sys2Proof

namespace Machine

/-- The bits of a byte, most significant first. -/
def bitsDown (b : Byte) : List Bool := [7, 6, 5, 4, 3, 2, 1, 0].map b.getLsbD

/-- The bits of a byte, least significant first. -/
def bitsUp (b : Byte) : List Bool := [0, 1, 2, 3, 4, 5, 6, 7].map b.getLsbD

/-- One bit into the CRC-16 register (R105). -/
def crc16Bit (r : Half) (b : Bool) : Half :=
  (r <<< 1) ^^^ (if r.msb ^^ b then 0x1021 else 0)

/-- The CRC-16 of the bytes of a frame's checked fields (R105). -/
def crc16 (bytes : List Byte) : Half :=
  (bytes.flatMap bitsDown).foldl crc16Bit 0xFFFF

/-- One bit into the CRC-32 register (R166). -/
def crc32Bit (r : Word) (b : Bool) : Word :=
  (r >>> 1) ^^^ (if r.getLsbD 0 ^^ b then 0xEDB88320 else 0)

/-- The CRC-32 register before the first byte (R166). -/
def crc32Start : Word := 0xFFFFFFFF

/-- The register after more bytes (R166). -/
def crc32Over (r : Word) (bytes : List Byte) : Word :=
  (bytes.flatMap bitsUp).foldl crc32Bit r

/-- The CRC-32 that a register stands for once the last byte is in: the register inverted (R166). -/
def crc32Final (r : Word) : Word := ~~~r

/-! ### Sent characters (R103) -/

/-- The even parity bit of a character: with the data bits it makes an even number of ones (R103). -/
def parityBit (b : Byte) : Bool := (bitsUp b).foldl (fun x y => x ^^ y) false

/-- The levels of a character's 11 bits in the order they are sent, `true` high: the start bit, the data bits least
significant first, the even parity bit and the stop bit (R103). -/
def characterBits (b : Byte) : List Bool := [false] ++ bitsUp b ++ [parityBit b, true]

/-! ### Received characters (R107) -/

/-- How many samples there are. -/
def sampleCount (xs : List SampleRun) : Nat := (xs.map SampleRun.count).sum

/-- The levels of the samples, oldest first. -/
def sampleLevels (xs : List SampleRun) : List Bool := xs.flatMap fun x => List.replicate x.count x.level

/-- One sample on the way to a start bit; none is the confirmation, by a low eighth sample after the fall, of which the
first low sample is the first. A high eighth sample drops the candidate (R107). -/
def Hunt.take (level : Bool) : Hunt → Option Hunt
  | .waitHigh => some (if level then .high else .waitHigh)
  | .high => some (if level then .high else .candidate 1)
  | .candidate n =>
    if n + 1 < candidateSamples then some (.candidate (n + 1)) else if level then some .high else none

/-- The samples one after another; none where one of them confirms a start bit (R107). -/
def Hunt.hear : List Bool → Hunt → Option Hunt
  | [], h => some h
  | x :: rest, h => (h.take x).bind (Hunt.hear rest)

/-- The last of the samples confirms a start bit, and none before it (R107). -/
def Hunt.confirms : List Bool → Hunt → Bool
  | [], _ => false
  | x :: rest, h =>
    match h.take x with
    | none => rest.isEmpty
    | some g => g.confirms rest

/-- Reference clocks for which the line has read high after the samples, one every `n` clocks, where it had for `t`
before them: a low sample sets the time to 0 (R111). -/
def highAfter (n : Nat) (levels : List Bool) (t : Nat) : Nat :=
  levels.foldl (fun t level => if level then t + n else 0) t

/-- The ten bits after the start bit, each read once, 16 samples after the one before: bit 0 the first data bit, bit 8
the parity bit and bit 9 the stop bit (R107). -/
def readBits (levels : List Bool) : BitVec 10 :=
  (List.range 10).foldl (fun b i => if levels.getD (16 * i + 15) false then b ||| BitVec.twoPow 10 i else b) 0

/-- The nine bits that carry the even parity of a character hold an odd number of ones (R107). -/
def parityOdd (bits : BitVec 10) : Bool :=
  ([0, 1, 2, 3, 4, 5, 6, 7, 8].map bits.getLsbD).foldl (fun a b => a ^^ b) false

/-- A completed character without the break flag: its data, least significant bit first, and its status (R103,
R107). -/
def rxChar (bits : BitVec 10) (overrun : Bool) : RxChar :=
  { data := bits.extractLsb' 0 8
    parity := parityOdd bits
    framing := !bits.getLsbD 9
    overrun := overrun }

/-- The character carries the parity, framing or overrun flag (R115). -/
def rxFlagged (c : RxChar) : Bool := c.parity || c.framing || c.overrun

end Machine

end Sys2Proof
end

