-- ==== Sys2Proof/WellFormed.lean ====
section
/-! DEFINITION. Which operands a command of the table can carry. -/

namespace Sys2Proof

/-- The lengths a sweep burst can have: the directory or the feed entries, or one unit entry (R183). -/
def sweepBurstLength (n : Nat) : Bool := n == 512 || n == 64

/-- The operands of a command have the form the spec gives them. Bits 0, 1 and 2 of CONTROL are RUN, LOAD_HEADER and
RESTART (section 11.2). -/
def Instr.wellFormed : Instr → Bool
  | .powerOnReset => true
  | .linkReset => true
  | .tick _ _ => true
  | .uptimeSecond => true
  | .gapDeclared => true
  | .shedCommand => true
  | .settlingEnd => true
  | .mainSwitchOn _ => true
  | .feedReachedOn _ => true
  | .cooldownEnd _ => true
  | .provingTimeReached _ => true
  | .bootTimeout _ => true
  | .attendTimerExpiry _ => true
  | .pollTimerExpiry _ => true
  | .sweepTimerExpiry => true
  | .completionTimeout _ => true
  | .busErrorCompletion _ => true
  | .readBurstSend _ => true
  | .sweepBurstComplete data => sweepBurstLength data.length
  | .adoptingSweepBurstComplete data => sweepBurstLength data.length
  | .headerLoadComplete data => data.length == 256
  | .fetchComplete data => decide (1 ≤ data.length) && decide (data.length ≤ 1024)
  | .writeBegin _ => true
  | .writeComplete => true
  | .runStart v => v.getLsbD 0 && !v.getLsbD 2
  | .runRecovery v => v.getLsbD 0 && !v.getLsbD 2
  | .runStop v => !v.getLsbD 0 && !v.getLsbD 2
  | .loadHeader v => v.getLsbD 1 && !v.getLsbD 2
  | .restart v => v.getLsbD 2
  | .ackMode v => !v.getLsbD 2
  | .changeIe v => !v.getLsbD 2
  | .stateIe v => !v.getLsbD 2
  | .sweep _ => true
  | .changeRead lanes => lanes != 0
  | .changeWrite _ => true
  | .stateWrite _ => true
  | .registerWrite _ lanes _ => lanes != 0
  | .frameTransmitted _ clk => decide (clk < Config.clocksPerTick)
  | .pauseEnd _ clk => decide (clk < Config.clocksPerTick)
  | .quietBreakHalfEnd _ clk => decide (clk < Config.clocksPerTick)
  | .quietEnd _ clk => decide (clk < Config.clocksPerTick)
  | .characterReceived _ clk samples =>
    decide (clk < Config.clocksPerTick) && decide (Machine.sampleCount samples = Machine.characterSamples)
      && Machine.readBits (Machine.sampleLevels samples) != 0
  | .breakReceived _ clk => decide (clk < Config.clocksPerTick)
  | .frameReceived _ => true
  | .firstReplyTimeout _ clk => decide (clk < Config.clocksPerTick)
  | .interCharacterTimeout _ clk => decide (clk < Config.clocksPerTick)
  | .discardEnd _ clk => decide (clk < Config.clocksPerTick)
  | .highTimerExpiry _ moment => decide (moment.clk < Config.clocksPerTick)
  | .arbiterChoice _ => true
  | .startBitConfirmed _ moment =>
    decide (moment.clk < Config.clocksPerTick) && (Machine.sampleLevels moment.samples).getLast? == some false

end Sys2Proof
end

