-- ==== Sys2Proof/Machine/Operands.lean ====
section
/-! DEFINITION. Byte layouts and value codes (chapter 11): the fields the part reads from the restore area, from
frames and from contexts, and the bytes it writes and sends. -/

namespace Sys2Proof

namespace Machine

/-! ### Multi-byte fields -/

/-- The byte at an offset of what was read. -/
def byteAt (d : List Byte) (i : Nat) : Byte := d.getD i 0

/-- The value of a one-byte field. -/
def natAt (d : List Byte) (i : Nat) : Nat := (byteAt d i).toNat

/-- A 16-bit field of the area, little-endian (R209). -/
def halfAt (d : List Byte) (i : Nat) : Half := byteAt d (i + 1) ++ byteAt d i

/-- A 32-bit field of the area, little-endian (R209). -/
def wordAt (d : List Byte) (i : Nat) : Word := halfAt d (i + 2) ++ halfAt d i

/-- A 64-bit field of the area, little-endian (R209). -/
def dwordAt (d : List Byte) (i : Nat) : Dword := wordAt d (i + 4) ++ wordAt d i

/-- A 16-bit field of a frame, high byte first (R210). -/
def halfAtHigh (d : List Byte) (i : Nat) : Half := byteAt d i ++ byteAt d (i + 1)

/-- A 32-bit field of a frame, high byte first (R210). -/
def wordAtHigh (d : List Byte) (i : Nat) : Word := halfAtHigh d i ++ halfAtHigh d (i + 2)

/-- The bytes of a 16-bit field of the area. -/
def halfBytes (h : Half) : List Byte := [h.extractLsb' 0 8, h.extractLsb' 8 8]

/-- The bytes of a 32-bit field of the area. -/
def wordBytes (w : Word) : List Byte := halfBytes (w.extractLsb' 0 16) ++ halfBytes (w.extractLsb' 16 16)

/-- The bytes of a 16-bit field of a frame. -/
def halfBytesHigh (h : Half) : List Byte := [h.extractLsb' 8 8, h.extractLsb' 0 8]

/-- The bytes of a 32-bit field of a frame. -/
def wordBytesHigh (w : Word) : List Byte :=
  halfBytesHigh (w.extractLsb' 16 16) ++ halfBytesHigh (w.extractLsb' 0 16)

/-- A count as a one-byte field. -/
def byteOf (n : Nat) : Byte := BitVec.ofNat 8 n

/-- A count as a 16-bit field. -/
def halfOf (n : Nat) : Half := BitVec.ofNat 16 n

/-- The context at an offset, byte 0 at the lowest (R210). -/
def contextAt (d : List Byte) (i : Nat) : Context := Vector.ofFn fun j : Fin 32 => byteAt d (i + j.val)

/-! ### Value codes (section 11.10) -/

/-- Unit and image kind. -/
def kindOfCode (b : Byte) : UnitKind :=
  if b = 1 then .door else if b = 2 then .display else .unset

/-- Unit request, none for an undefined code. -/
def unitRequestOfCode (b : Byte) : Option UnitRequest :=
  if b = 1 then some .enlist
  else if b = 2 then some .retire
  else if b = 3 then some .reload
  else if b = 4 then some .contextEdit
  else if b = 5 then some .releaseDoor
  else none

/-- Latch mode; an undefined code is taken as LATCHED (R80). -/
def latchModeOfCode (b : Byte) : LatchMode := if b = 0 then .auto else .latched

/-- Controller mode. -/
def modeCode : Mode → Nat
  | .stopped => 0
  | .running => 1
  | .areaFault => 2

/-- Supply state. -/
def supplyCode : SupplyState → Nat
  | .startup => 0
  | .up => 1
  | .pending => 2
  | .gap => 3
  | .settling => 4

/-- Run state. -/
def runCode : RunState → Nat
  | .unmanaged => 0
  | .probing => 1
  | .running => 2
  | .held => 3
  | .riding => 4
  | .waitFeed => 5
  | .checking => 6
  | .attending => 7
  | .loading => 8
  | .verifying => 9
  | .restoring => 10
  | .failed => 11

/-- Last class. -/
def classCode : Option GapClass → Nat
  | none => 0
  | some .rode => 1
  | some .warm => 2
  | some .cold => 3

/-- Answer code. -/
def answerCode : AnswerCode → Nat
  | .blank => 0
  | .done => 1
  | .refusedState => 2
  | .refusedBusy => 3
  | .refusedBad => 4
  | .stale => 5
  | .cut => 6
  | .cancelled => 7
  | .failed => 8
  | .faultActive => 9

/-- Failure cause. -/
def causeCode : FailureCause → Nat
  | .blank => 0
  | .noReply => 1
  | .damaged => 2
  | .blockRejected => 3
  | .imageBad => 4
  | .imageChanged => 5
  | .area => 6
  | .lineFault => 7
  | .bootTimeout => 8
  | .protocol => 9

/-- Feed state. -/
def feedCode : FeedState → Nat
  | .off => 0
  | .waiting => 1
  | .softstart => 2
  | .on => 3
  | .shed => 4
  | .tripped => 5
  | .lockedOff => 6

/-- The size of a block by its code (R145). -/
def blockSize (code : Nat) : Nat := 64 * 2 ^ code

/-- Kind codes of the frames the part sends (section 11.9). -/
def requestCode : RequestKind → BitVec 4
  | .helloAsk => 1
  | .statusAsk => 2
  | .contextPut => 3
  | .imageBegin => 4
  | .imageBlock => 5
  | .blockAsk => 6
  | .imageEnd => 7

/-! ### Contexts (section 11.8) -/

/-- The door policy's condition: position class CLOSED_LOCKED, or isolated set (R39, R66). -/
def doorReleasable (ctx : Context) : Bool := ctx[0] == 1 || ctx[1] != 0

/-- The context a restore puts: a display's ANNOUNCE is sent as NORMAL and its announcement as 0 (R39, log 12). -/
def restoredContext (kind : UnitKind) (ctx : Context) : Context :=
  if kind = .display then ((if ctx[0] = 2 then ctx.set 0 1 else ctx).set 1 0) else ctx

/-- The mode byte of a display context holds a defined code (R44). -/
def displayModeDefined (ctx : Context) : Bool := ctx[0] == 1 || ctx[0] == 2 || ctx[0] == 3 || ctx[0] == 4

/-- The edit differs from the stored door context at most in the isolated field, which is clear or set (R44); an edit
equal to a stored context whose isolated field is neither fails this check (log 32). -/
def doorEditAllowed (stored edit : Context) : Bool :=
  (edit.set 1 0).toList == (stored.set 1 0).toList && (edit[1] == 0 || edit[1] == 1)

/-! ### The header (section 11.3) -/

/-- What a header load reads: the settings, the budget and the header edition. -/
structure HeaderFields where
  settings : Settings
  budget : Nat
  edition : Half
  deriving DecidableEq, Repr

/-- One line configuration as read. -/
def lineConfigAt (d : List Byte) (k : Nat) : LineConfig :=
  { divisor := (halfAt d (0x20 + 4 * k)).toNat
    firstReply := natAt d (0x22 + 4 * k)
    gapLimit := natAt d (0x23 + 4 * k) }

/-- The host-written fields of the header as read. -/
def headerFields (d : List Byte) : HeaderFields :=
  { settings :=
      { sweepInterval := natAt d 0x02
        minGap := natAt d 0x03
        shedTime := (halfAt d 0x04).toNat
        settle := (halfAt d 0x06).toNat
        derate := (halfAt d 0x08).toNat
        guard := natAt d 0x0A
        attendInterval := natAt d 0x0B
        pollInterval := (halfAt d 0x0C).toNat
        missLimit := natAt d 0x0E
        provingTime := (halfAt d 0x10).toNat
        retryLimit := natAt d 0x12
        lines := Vector.ofFn fun k : LineIx => lineConfigAt d k.val }
    budget := natAt d 0x0F
    edition := halfAt d 0x00 }

/-- A line configuration clamped into range (R102). -/
def clampLineConfig (c : LineConfig) : LineConfig :=
  { divisor := clampTo 2 65535 c.divisor
    firstReply := clampTo 1 255 c.firstReply
    gapLimit := clampTo 2 15 c.gapLimit }

/-- Every header value clamped into its range (R188). -/
def clampHeader (h : HeaderFields) : HeaderFields :=
  { settings :=
      { sweepInterval := clampTo 1 255 h.settings.sweepInterval
        minGap := clampTo 1 255 h.settings.minGap
        shedTime := clampTo 1 65535 h.settings.shedTime
        settle := h.settings.settle
        derate := clampTo 128 256 h.settings.derate
        guard := h.settings.guard
        attendInterval := clampTo 1 255 h.settings.attendInterval
        pollInterval := clampTo 1 65535 h.settings.pollInterval
        missLimit := clampTo 1 15 h.settings.missLimit
        provingTime := clampTo 1 65535 h.settings.provingTime
        retryLimit := clampTo 0 7 h.settings.retryLimit
        lines := h.settings.lines.map clampLineConfig }
    budget := clampTo 1 63 h.budget
    edition := h.edition }

/-- The load clamped at least one value (R188). -/
def headerClamped (h : HeaderFields) : Bool := decide (clampHeader h ≠ h)

/-! ### Feed, directory and unit entries (sections 11.4, 11.6, 11.7) -/

/-- The offered configuration that a feed entry delivers, clamped (R80). -/
def feedConfigAt (d : List Byte) (i : Nat) : FeedConfig :=
  let precharge := clampTo 1 255 (natAt d (i + 2))
  { priority := clampTo 0 3 (natAt d i)
    weight := clampTo 1 15 (natAt d (i + 1))
    precharge := precharge
    settle := max (natAt d (i + 3)) (precharge + 1)
    cooldown := clampTo 1 65535 (halfAt d (i + 4)).toNat
    tripLimit := clampTo 1 7 (natAt d (i + 6))
    latchMode := latchModeOfCode (byteAt d (i + 7)) }

/-- A directory entry as read (R145). -/
def directoryEntryAt (d : List Byte) (i : Nat) : DirectoryEntry :=
  { address := dwordAt d i
    length := wordAt d (i + 0x08)
    crc := wordAt d (i + 0x0C)
    edition := halfAt d (i + 0x10)
    sizeCode := byteAt d (i + 0x12)
    kindCode := byteAt d (i + 0x13) }

/-- The blocks of an image of a length, with blocks of a size: the ceiling of length / size (R146). -/
def blockCountOf (length size : Nat) : Nat := (length + (size - 1)) / size

/-- A directory entry is valid (R146). -/
def directoryValid (e : DirectoryEntry) : Bool :=
  decide (1 ≤ e.length.toNat) && decide (e.length.toNat ≤ imageLengthLimit)
    && decide (e.sizeCode.toNat ≤ 4)
    && decide (kindOfCode e.kindCode ≠ .unset)
    && decide (blockCountOf e.length.toNat (blockSize e.sizeCode.toNat) ≤ blockCountLimit)

/-- The latched image entry read from a directory entry (R29). -/
def latchedImage (i : ImageIx) (e : DirectoryEntry) : LatchedImage :=
  { index := i
    address := e.address
    length := e.length.toNat
    sizeCode := e.sizeCode.toNat
    blockCount := blockCountOf e.length.toNat (blockSize e.sizeCode.toNat)
    crc := e.crc
    kind := kindOfCode e.kindCode
    edition := e.edition }

/-- The bytes that block `b` of an image holds (R146). -/
def blockLength (m : LatchedImage) (b : Nat) : Nat :=
  if b + 1 = m.blockCount then m.length - (m.blockCount - 1) * blockSize m.sizeCode else blockSize m.sizeCode

/-- A field below a bound, as an index. -/
def finBelow (n x : Nat) : Option (Fin n) := if h : x < n then some ⟨x, h⟩ else none

/-- The configuration part of a unit entry, where every field is in range (R27). -/
def unitConfigAt (d : List Byte) : Option UnitConfig :=
  match finBelow Config.lines (natAt d 0x01), finBelow Config.feeds (natAt d 0x03),
      finBelow Config.images (natAt d 0x06) with
  | some line, some feed, some image =>
    if kindOfCode (byteAt d 0x00) ≠ .unset ∧ 1 ≤ natAt d 0x02 ∧ natAt d 0x02 ≤ 14 ∧ natAt d 0x04 ≤ 3 then
      some
        { kind := kindOfCode (byteAt d 0x00)
          line := line
          address := BitVec.ofNat 4 (natAt d 0x02)
          feed := feed
          priority := natAt d 0x04
          groupTag := byteAt d 0x05
          image := image
          ride := (halfAt d 0x08).toNat
          retain := (halfAt d 0x0A).toNat
          bootTimeout := max 1 (halfAt d 0x0C).toNat }
    else none
  | _, _, _ => none

/-- The request code of a unit entry. -/
def unitRequestCodeAt (d : List Byte) : Byte := byteAt d 0x10

/-- The request tag of a unit entry. -/
def unitRequestTagAt (d : List Byte) : Byte := byteAt d 0x11

/-- The edit base sequence of a unit entry. -/
def editBaseAt (d : List Byte) : Word := wordAt d 0x14

/-- The edit context of a unit entry. -/
def editContextAt (d : List Byte) : Context := contextAt d 0x20

/-- The result part of a unit entry, 64 bytes (section 11.7). -/
def resultPart (r : UnitRecord) : List Byte :=
  [byteOf (runCode r.run), byteOf (classCode r.lastClass),
    (match r.inFlight with
      | some f => f.tag
      | none => 0),
    r.answerTag, byteOf (answerCode r.answerCode), byteOf (causeCode r.cause)]
    ++ halfBytes r.resultEdition ++ halfBytes (halfOf r.misses) ++ halfBytes (halfOf r.loads)
    ++ wordBytes r.contextSeq ++ halfBytes (halfOf r.progressDone) ++ halfBytes (halfOf r.progressTotal)
    ++ List.replicate 12 0 ++ r.context.toList

/-- The part-written fields of a feed entry, 12 bytes (section 11.4). -/
def feedStatus (r : FeedRecord) : List Byte :=
  [byteOf (feedCode r.state), byteOf r.tripCount, byteOf r.weight, r.answerTag, byteOf (answerCode r.answerCode)]
    ++ List.replicate 3 0 ++ wordBytes r.lastTrip

/-- A flag as a bit of a byte. -/
def flagBit (b : Bool) (i : Nat) : Nat := if b then 2 ^ i else 0

/-- One slot of the gap list mirror that holds a record (section 11.5). -/
def gapSlot (r : GapRecord) : List Byte :=
  [1, byteOf (flagBit r.overRange 0 + flagBit r.merged 1 + flagBit r.shed 2)]
    ++ halfBytes (halfOf r.duration) ++ wordBytes r.declaredAt
    ++ [byteOf r.noneCount, byteOf r.warmCount, byteOf r.coldCount] ++ List.replicate 21 0

/-- The gap list mirror, 8 slots of 32 bytes, the oldest record first (R19, section 11.5). -/
def gapMirror (l : List GapRecord) : List Byte :=
  ((l.map gapSlot).flatten ++ List.replicate 256 0).take 256

/-- The four counters of a line in the header status (section 11.3). -/
def lineCounters (r : LineRecord) : List Byte :=
  halfBytes (halfOf r.strays) ++ halfBytes (halfOf r.damaged) ++ halfBytes (halfOf r.overruns)
    ++ halfBytes (halfOf r.faults)

/-! ### Frames (section 11.9) -/

/-- The address/kind byte. -/
def addressKind (address kind : BitVec 4) : Byte := address ++ kind

/-- The fields of a frame that its CRC-16 covers (R105). -/
def checkedFields (f : TxFrame) : List Byte :=
  [addressKind f.address (requestCode f.kind), f.seq] ++ halfBytesHigh (halfOf f.payload.length) ++ f.payload

/-- The characters of a frame, in the order they are sent (R104). -/
def frameCharacters (f : TxFrame) : List Byte :=
  [leadCharacter] ++ checkedFields f ++ halfBytesHigh (crc16 (checkedFields f))

/-- The levels of a frame's bits, its characters back to back (R103). -/
def frameBits (f : TxFrame) : List Bool := (frameCharacters f).flatMap characterBits

/-- Reference clocks from the start of a frame's first start bit to the release of DE_n (R106). -/
def frameClocks (divisor : Nat) (f : TxFrame) : Nat :=
  (frameCharacters f).length * charClocks divisor + bitClocks divisor

/-- The payload length that a received frame's fourth and fifth characters give (R113). -/
def receivedLength (bytes : List Byte) : Nat := (halfAtHigh bytes 3).toNat

/-- The payload of a received frame. -/
def receivedPayload (bytes : List Byte) : List Byte := (bytes.drop 5).take (receivedLength bytes)

/-- The address of a received frame. -/
def receivedAddress (bytes : List Byte) : BitVec 4 := (byteAt bytes 1).extractLsb' 4 4

/-- The kind code of a received frame. -/
def receivedKind (bytes : List Byte) : BitVec 4 := (byteAt bytes 1).extractLsb' 0 4

/-- The sequence byte of a received frame. -/
def receivedSeq (bytes : List Byte) : Byte := byteAt bytes 2

/-- The CRC-16 of a whole received frame is right (R113). -/
def receivedCrcRight (bytes : List Byte) : Bool :=
  crc16 ((bytes.drop 1).take (4 + receivedLength bytes)) == halfAtHigh bytes (5 + receivedLength bytes)

/-- What a HELLO reports (R139). -/
structure Hello where
  bootCount : Half
  intact : Bool
  edition : Half
  crc : Word
  /-- The retained context; none is LOST. -/
  retained : Option Context
  deriving DecidableEq, Repr

/-- A reply of a unit, its length and codes checked (R128, R139 to R141). -/
inductive Reply where
  | hello (h : Hello)
  | status (bootCount : Half) (context : Context)
  | ack
  | blockOk (block : Nat)
  | blockBad (block : Nat)
  | verdict (good : Bool)
  deriving DecidableEq, Repr

/-- The HELLO of a payload, none where its length or a coded field is wrong (R139). -/
def helloOf (p : List Byte) : Option Hello :=
  let state := byteAt p 2
  let kept := byteAt p 9
  let fields (r : Option Context) : Hello :=
    { bootCount := halfAtHigh p 0, intact := state == 1, edition := halfAtHigh p 3, crc := wordAtHigh p 5
      retained := r }
  if state = 1 ∨ state = 2 then
    if kept = 1 ∧ p.length = 42 then some (fields (some (contextAt p 10)))
    else if kept = 2 ∧ p.length = 10 then some (fields none)
    else none
  else none

/-- The reply that a frame's kind code and payload make, none where R128's length or codes fail. -/
def replyOf (kind : BitVec 4) (p : List Byte) : Option Reply :=
  if kind = 8 then (helloOf p).map .hello
  else if kind = 9 then if p.length = 34 then some (.status (halfAtHigh p 0) (contextAt p 2)) else none
  else if kind = 10 then if p.length = 0 then some .ack else none
  else if kind = 11 then if p.length = 2 then some (.blockOk (halfAtHigh p 0).toNat) else none
  else if kind = 12 then if p.length = 2 then some (.blockBad (halfAtHigh p 0).toNat) else none
  else if kind = 13 then
    if p.length = 1 ∧ byteAt p 0 = 1 then some (.verdict true)
    else if p.length = 1 ∧ byteAt p 0 = 2 then some (.verdict false)
    else none
  else none

/-- The request accepts the reply (R128). -/
def replyAccepted (kind : RequestKind) (block : Nat) : Reply → Bool
  | .hello _ => decide (kind = .helloAsk)
  | .status _ _ => decide (kind = .statusAsk)
  | .ack => decide (kind = .contextPut ∨ kind = .imageBegin)
  | .blockOk b => decide ((kind = .imageBlock ∨ kind = .blockAsk) ∧ b = block)
  | .blockBad b => decide ((kind = .imageBlock ∨ kind = .blockAsk) ∧ b = block)
  | .verdict _ => decide (kind = .imageEnd)

/-- The payload of an IMAGE_BEGIN (R138). -/
def imageBeginPayload (m : LatchedImage) (tag : Byte) : List Byte :=
  halfBytesHigh m.edition ++ wordBytesHigh (BitVec.ofNat 32 m.length) ++ [byteOf m.sizeCode]
    ++ halfBytesHigh (halfOf m.blockCount) ++ [tag]

/-- The payload of an IMAGE_BLOCK (R138). -/
def imageBlockPayload (block : Nat) (tag : Byte) (data : List Byte) : List Byte :=
  halfBytesHigh (halfOf block) ++ [tag] ++ data

/-- The payload of a CONTEXT_PUT (R138). -/
def contextPutPayload (c : Context) (inhibit : Bool) : List Byte := c.toList ++ [if inhibit then 1 else 0]

/-! ### Fields of CONTROL (section 11.2) -/

/-- CONTROL.RUN. -/
def controlRun (v : Word) : Bool := v.getLsbD 0

/-- CONTROL.LOAD_HEADER. -/
def controlLoadHeader (v : Word) : Bool := v.getLsbD 1

/-- CONTROL.RESTART. -/
def controlRestart (v : Word) : Bool := v.getLsbD 2

/-- CONTROL.KEEP_FEEDS. -/
def controlKeepFeeds (v : Word) : Bool := v.getLsbD 3

/-- CONTROL.ACK_MODE. -/
def controlAckMode (v : Word) : Bool := v.getLsbD 4

/-- CONTROL.CHANGE_IE. -/
def controlChangeIe (v : Word) : Bool := v.getLsbD 5

/-- CONTROL.STATE_IE. -/
def controlStateIe (v : Word) : Bool := v.getLsbD 6

end Machine

end Sys2Proof
end

