-- ==== Sys2Proof/Machine/Ops.lean ====
section
/-! DEFINITION. The named operations that every step is built from: the area write queue and the records whose changes
are handed to it, events, line time, and the register window's reads. -/

namespace Sys2Proof

namespace Machine

/-! ### The area write queue and the records it mirrors -/

/-- A block hands an item to the queue (R189, R190): without effect in STOPPED, and each item stands in it once. -/
def Runtime.enqueue (i : Item) (r : Runtime) : Runtime :=
  if r.mode = .stopped then r
  else if i ∈ r.queue then r
  else { r with queue := r.queue ++ [i] }

/-- The mirrored fields of a unit record: its result part but for the result edition (R38). -/
def UnitRecord.mirror (x : UnitRecord) : List Byte := resultPart { x with resultEdition := 0 }

/-- A unit record is replaced; a change of a mirrored field hands the unit's result item (R38). -/
def Runtime.setUnit (u : UnitIx) (x : UnitRecord) (r : Runtime) : Runtime :=
  if x.mirror = r.units[u].mirror then { r with units := r.units.set u x }
  else Runtime.enqueue (.unitResult u) { r with units := r.units.set u x }

/-- A unit record is changed. -/
def Runtime.updUnit (u : UnitIx) (f : UnitRecord → UnitRecord) (r : Runtime) : Runtime :=
  r.setUnit u (f r.units[u])

/-- A line record is replaced; a change of a counter hands the header status item (R121). -/
def Runtime.setLine (k : LineIx) (l : LineRecord) (r : Runtime) : Runtime :=
  if lineCounters l = lineCounters r.lines[k] then { r with lines := r.lines.set k l }
  else Runtime.enqueue .headerStatus { r with lines := r.lines.set k l }

/-- A line record is changed. -/
def Runtime.updLine (k : LineIx) (f : LineRecord → LineRecord) (r : Runtime) : Runtime :=
  r.setLine k (f r.lines[k])

/-- A suspect mark is changed, which hands the header status item (R167). -/
def Runtime.setSuspect (i : ImageIx) (m : Option Half) (r : Runtime) : Runtime :=
  if r.suspect[i] = m then r
  else Runtime.enqueue .headerStatus { r with suspect := r.suspect.set i m }

/-- Each of several units acts in turn, in ascending entry index (R135). -/
def Runtime.eachUnit (f : UnitIx → Runtime → Runtime) (r : Runtime) : Runtime :=
  (List.finRange Config.units).foldl (fun r u => f u r) r

/-- Each line acts in turn. -/
def Runtime.eachLine (f : LineIx → Runtime → Runtime) (r : Runtime) : Runtime :=
  (List.finRange Config.lines).foldl (fun r k => f k r) r

/-- A budget takes force between two states of the Feed Controller: the value in force changes, or a pending one takes
force, be it equal to the value before (R84, R190). -/
def FeedControl.budgetTakesForce (old new : FeedControl) : Bool :=
  decide (new.budget ≠ old.budget) || (old.pendingBudget.isSome && new.pendingBudget.isNone)

/-- Items handed for the feeds whose status differs between two states of the Feed Controller, and for a budget that takes
force (R99, R190). -/
def Runtime.handFeeds (old new : FeedControl) (r : Runtime) : Runtime :=
  let r1 := (List.finRange Config.feeds).foldl
    (fun r f => if feedStatus new.feed[f] = feedStatus old.feed[f] then r else r.enqueue (.feedStatus f)) r
  if old.budgetTakesForce new then r1.enqueue .headerStatus else r1

/-- The Feed Controller is changed, and the changes are handed. -/
def State.setFeeds (s : State) (fc : FeedControl) : State :=
  { s with feeds := fc, rt := s.rt.handFeeds s.feeds fc }

/-! ### Answers -/

/-- A request is answered: its tag and the code are written, and the result item is queued (R72). -/
def Runtime.answer (u : UnitIx) (tag : Byte) (code : AnswerCode) (r : Runtime) : Runtime :=
  Runtime.enqueue (.unitResult u)
    (r.updUnit u fun x => { x with answerTag := tag, answerCode := code })

/-- The request in flight, if any, is answered, and the in-flight tag becomes 0. -/
def Runtime.closeInFlight (u : UnitIx) (code : AnswerCode) (r : Runtime) : Runtime :=
  match r.units[u].inFlight with
  | none => r
  | some q => (r.updUnit u fun x => { x with inFlight := none }).answer u q.tag code

/-- The request in flight is an edit or a release (R55, R59, R69). -/
def UnitRecord.editOrRelease (x : UnitRecord) : Bool :=
  match x.inFlight with
  | some q => decide (q.request = .contextEdit ∨ q.request = .releaseDoor)
  | none => false

/-- The request in flight is an ENLIST or a RELOAD (R71). -/
def UnitRecord.enlistOrReload (x : UnitRecord) : Bool :=
  match x.inFlight with
  | some q => decide (q.request = .enlist ∨ q.request = .reload)
  | none => false

/-! ### Events, the uptime and IRQ_N -/

/-- The event bits of STATE by position (section 11.2). -/
inductive Event where
  | gapDeclared
  | supplyUp
  | feedEvent
  | areaFault
  | clamped
  deriving DecidableEq, Repr

/-- The bit of an event. -/
def eventBit : Event → BitVec 5
  | .gapDeclared => 1
  | .supplyUp => 2
  | .feedEvent => 4
  | .areaFault => 8
  | .clamped => 16

/-- An event is raised (R198). -/
def State.raise (e : Event) (s : State) : State :=
  { s with port := { s.port with events := s.port.events ||| eventBit e } }

/-- The uptime that an event of the present tick takes: a second that ends on the tick counts (R2, log 5). -/
def State.uptimeNow (s : State) : Word :=
  if Due.uptimeSecond ∈ s.due then s.clock.uptime + 1 else s.clock.uptime

/-- IRQ_N is asserted, that is low (R200). -/
def State.irqAsserted (s : State) : Bool :=
  (s.port.change != 0 && s.port.changeIe) || (s.port.events != 0 && s.port.stateIe)

/-- A feed is in ON. -/
def State.feedOn (s : State) (f : FeedIx) : Bool := decide (s.feeds.feed[f].state = .on)

/-! ### Outputs -/

/-- PRE_n (section 4.1). -/
def FeedRecord.preOut (x : FeedRecord) : Bool := decide (x.state = .softstart)

/-- MAIN_n (section 4.1, R85). -/
def FeedRecord.mainOut (x : FeedRecord) : Bool := decide (x.state = .on) || (decide (x.state = .softstart) && x.mainOn)

/-- Some of a cut character or break is left to send. -/
def Tail.live (x : Tail) : Bool := decide (0 < x.left)

/-- The level of a cut character or break (R103, R118); high once it is over. -/
def Tail.levelHigh (x : Tail) : Bool :=
  if x.live then x.levels.getD ((x.levels.length * x.bit - x.left) / x.bit) true else true

/-- DE_n is asserted: during a frame and its closing bit time, during the break half of QUIET, and until a character or
break that a cut left on the wire is complete (R106, R110, R118, R120, section 5.7). -/
def LineRecord.driverEnabled (l : LineRecord) : Bool :=
  match l.state with
  | .sending => !l.pausing
  | .quiet => !l.idleHalf
  | .awaiting | .receiving => false
  | .idle | .faulted | .stopped => l.tail.live

/-- TXD_n is high: a frame's bits one after another, high in the closing bit time and in the pause, low in the break half
of QUIET, and high wherever no character and no break is sent (R103, R106, R118). -/
def LineRecord.txdHigh (l : LineRecord) : Bool :=
  match l.state with
  | .sending =>
    match l.pausing, l.frame with
    | false, some f => (frameBits f).getD (l.phaseTimer / bitClocks l.latched.divisor) true
    | _, _ => true
  | .quiet => l.idleHalf
  | .awaiting | .receiving => true
  | .idle | .faulted | .stopped => l.tail.levelHigh

/-- TXD_n is held low for the break half of QUIET (R118). -/
def LineRecord.breakDriven (l : LineRecord) : Bool := decide (l.state = .quiet) && !l.idleHalf

/-! ### Line time (R1, R102) -/

/-- Reference clocks pass on a line: the timers that run in its state count on, and what a cut left on the wire goes on
(R106, R112, R114, R115, R118, R120). The high timer goes on with the samples of RXD_n that the line's events bring
(R111). -/
def LineRecord.elapse (dt : Nat) (l : LineRecord) : LineRecord :=
  { l with
    phaseTimer := if l.state = .sending ∨ l.state = .quiet then l.phaseTimer + dt else l.phaseTimer
    firstReply := if l.state = .awaiting then l.firstReply.map (· + dt) else l.firstReply
    interChar := l.interChar.map (· + dt)
    silence := l.silence.map (· + dt)
    rxClock := if l.state = .stopped then l.rxClock else l.rxClock + dt
    tail := { l.tail with left := l.tail.left - dt } }

/-- Reference clocks pass on every line, and in the prescaler (R1). -/
def State.elapse (dt : Nat) (s : State) : State :=
  { s with
    clock := { s.clock with prescaler := s.clock.prescaler + dt }
    rt := { s.rt with lines := s.rt.lines.map (LineRecord.elapse dt) } }

/-- The moment of a line event, `clk` clocks on, if no tick comes before it (log 6). -/
def State.atMoment (clk : Nat) (s : State) : Option State :=
  if s.clock.prescaler + clk < Config.clocksPerTick then some (s.elapse clk) else none

/-- A line event: at its moment, where the line is in a condition in which the event comes about, it has its effect;
otherwise the event does not come about (log 2). -/
def State.lineEvent (k : LineIx) (clk : Nat) (enabled : LineRecord → Bool) (effect : Runtime → Runtime) (s : State) :
    State :=
  match s.atMoment clk with
  | none => s
  | some m => if enabled m.rt.lines[k] then { m with rt := effect m.rt } else s

/-- A timer has reached a number of reference clocks. -/
def reached (t : Option Nat) (n : Nat) : Bool :=
  match t with
  | some v => decide (n ≤ v)
  | none => false

/-! ### The register window's reads (R172, R199, R201) -/

/-- The value of CONTROL (R201). -/
def State.controlValue (s : State) : Word :=
  BitVec.ofNat 32
    (flagBit (s.port.starting || decide (s.rt.mode ≠ .stopped)) 0 + flagBit s.port.ackExplicit 4
      + flagBit s.port.changeIe 5 + flagBit s.port.stateIe 6)

/-- The value of STATE (R198, R199). -/
def State.stateValue (s : State) : Word :=
  BitVec.ofNat 32 (s.port.events.toNat + modeCode s.rt.mode * 2 ^ 8 + supplyCode s.monitor.supply * 2 ^ 12)

/-- The value that a 32-bit read at an offset of the window returns. -/
def State.readRegister (s : State) (offset : BitVec 12) : Word :=
  if offset = 0x00 then s.port.areaLow
  else if offset = 0x04 then s.port.areaHigh
  else if offset = 0x08 then s.controlValue
  else if offset = 0x10 then s.port.change
  else if offset = 0x14 then s.stateValue
  else 0

/-- The bytes of a register that an access covers; the others are not on the bus (R172, log 16). -/
def laneMask (lanes : BitVec 4) : Word :=
  BitVec.ofNat 32
    ((if lanes.getLsbD 0 then 0xFF else 0) + (if lanes.getLsbD 1 then 0xFF00 else 0)
      + (if lanes.getLsbD 2 then 0xFF0000 else 0) + (if lanes.getLsbD 3 then 0xFF000000 else 0))

/-- What a read of the window returns that covers some bytes of the word holding an offset: the addressed bytes of the
register (R172, log 16). A read of CHANGE also has its effect (`State.readChange`). -/
def State.readBytes (s : State) (offset : BitVec 12) (lanes : BitVec 4) : Word :=
  s.readRegister (offset &&& 0xFFC) &&& laneMask lanes

end Machine

end Sys2Proof
end

