-- ==== Sys2Proof/Machine/FeedOps.lean ====
section
/-! DEFINITION. The Feed Controller's own operations: admission within the budget, soft starts and their cuts, trips,
the gap's effects on feeds, and feed requests (chapter 4). Each is a function of the Feed Controller's state alone;
`up` says whether the supply state is UP. -/

namespace Sys2Proof

namespace Machine

/-- A feed record is changed. -/
def FeedControl.upd (f : FeedIx) (g : FeedRecord → FeedRecord) (fc : FeedControl) : FeedControl :=
  { fc with feed := fc.feed.set f (g fc.feed[f]) }

/-! ### Admission (section 4.2) -/

/-- The weight a feed holds of the budget: its latched weight in SOFTSTART (R82). -/
def FeedRecord.share (x : FeedRecord) : Nat := if x.state = .softstart then x.weight else 0

/-- The sum of the latched weights of the feeds in SOFTSTART (R82). -/
def FeedControl.shares (fc : FeedControl) : Nat := (fc.feed.toList.map FeedRecord.share).sum

/-- Some feed is in SOFTSTART. -/
def FeedControl.starting (fc : FeedControl) : Bool := fc.feed.toList.any fun x => decide (x.state = .softstart)

/-- The candidate among the feeds of a list: the highest offered priority, and among equals the one that joined
earliest (R82). -/
def FeedControl.candidateOf (fc : FeedControl) : List FeedIx → Option FeedIx
  | [] => none
  | f :: rest =>
    match fc.candidateOf rest with
    | none => some f
    | some g => if fc.feed[f].offered.priority < fc.feed[g].offered.priority then some g else some f

/-- The weight a candidate is taken with: its offered weight, at most the budget in force (R82). -/
def FeedControl.takenWeight (fc : FeedControl) (f : FeedIx) : Nat := min fc.feed[f].offered.weight fc.budget

/-- A feed is admitted: it leaves the list and enters SOFTSTART with its admission values latched and its timer at 0
(R85). -/
def FeedControl.admitFeed (f : FeedIx) (fc : FeedControl) : FeedControl :=
  FeedControl.upd f
    (fun x =>
      { x with
        state := .softstart
        mainOn := false
        weight := fc.takenWeight f
        precharge := x.offered.precharge
        settle := x.offered.settle
        timer := 0 })
    { fc with admission := fc.admission.erase f }

/-- The steps of R82, at most `n` of them: each admits the candidate where it fits, else ends the consideration. -/
def FeedControl.considerN : Nat → FeedControl → FeedControl
  | 0, fc => fc
  | n + 1, fc =>
    match fc.candidateOf fc.admission with
    | none => fc
    | some f => if fc.shares + fc.takenWeight f ≤ fc.budget then considerN n (fc.admitFeed f) else fc

/-- Admission is considered (R82, R83): every step that admits takes a feed off the list. -/
def FeedControl.consider (up : Bool) (fc : FeedControl) : FeedControl :=
  if up then fc.considerN fc.admission.length else fc

/-- A pending budget takes force where no feed is in SOFTSTART (R84). -/
def FeedControl.settleBudget (fc : FeedControl) : FeedControl :=
  match fc.pendingBudget with
  | some b => if fc.starting then fc else { fc with budget := b, pendingBudget := none }
  | none => fc

/-- A header load delivers a budget, clamped (R84). -/
def FeedControl.deliverBudget (up : Bool) (b : Nat) (fc : FeedControl) : FeedControl :=
  if fc.starting then { fc with pendingBudget := some b }
  else FeedControl.consider up { fc with budget := b, pendingBudget := none }

/-- A feed has left SOFTSTART: a pending budget may take force, and admission is considered (R84, R86). -/
def FeedControl.afterLeave (up : Bool) (fc : FeedControl) : FeedControl := fc.settleBudget.consider up

/-- A feed enters WAITING and joins the admission list at its tail (R81). -/
def FeedControl.join (f : FeedIx) (fc : FeedControl) : FeedControl :=
  FeedControl.upd f (fun x => { x with state := .waiting, mainOn := false })
    { fc with admission := fc.admission ++ [f] }

/-! ### A tick on the feeds -/

/-- The fault filter takes one sample; low is active (R87). -/
def FeedRecord.sample (level : Bool) (x : FeedRecord) : FeedRecord :=
  if (!level) = x.faultActive then { x with faultDiffering := false }
  else if x.faultDiffering then { x with faultActive := !level, faultDiffering := false }
  else { x with faultDiffering := true }

/-- The feed trips on this tick (R88). -/
def FeedRecord.trips (x : FeedRecord) : Bool :=
  x.faultActive && (decide (x.state = .softstart) || decide (x.state = .on))

/-- The timers of a feed that does not trip count on, in the states that run them (R85, R89, R90). -/
def FeedRecord.advance (x : FeedRecord) : FeedRecord :=
  if x.trips then x
  else
    match x.state with
    | .softstart => { x with timer := satInc x.timer }
    | .tripped => { x with timer := satInc x.timer }
    | .on => { x with proving := satInc x.proving }
    | _ => x

/-- The filters take their samples and the timers count on (R87, R88). -/
def FeedControl.sampleAll (fault : BitVec 16) (fc : FeedControl) : FeedControl :=
  { fc with feed := Vector.ofFn fun f : FeedIx => ((fc.feed[f]).sample (fault.getLsbD f.val)).advance }

/-- The feeds that trip on this tick, in index order. -/
def FeedControl.tripping (fc : FeedControl) : List FeedIx :=
  (List.finRange Config.feeds).filter fun f => (fc.feed[f]).trips

/-- A feed trips at an uptime (R88); the end of a cut soft start follows the left ON notice (R86). -/
def FeedControl.trip (now : Word) (f : FeedIx) (fc : FeedControl) : FeedControl :=
  fc.upd f fun x =>
    { x with
      state := if x.offered.latchMode = .auto then .tripped else .lockedOff
      mainOn := false
      tripCount := satTrip x.tripCount
      lastTrip := now
      cooldown := x.offered.cooldown
      tripLimit := x.offered.tripLimit
      latchMode := x.offered.latchMode
      timer := 0 }

/-! ### What a feed's timers bring about -/

/-- The feed timer has reached the latched precharge (R85). -/
def FeedRecord.mainDue (x : FeedRecord) : Bool := decide (x.state = .softstart ∧ x.mainOn = false ∧ x.timer = x.precharge)

/-- The feed timer has reached the latched settle (R85). -/
def FeedRecord.onDue (x : FeedRecord) : Bool := decide (x.state = .softstart ∧ x.timer = x.settle)

/-- The cooldown has ended (R89). -/
def FeedRecord.cooldownDue (x : FeedRecord) : Bool :=
  decide (x.state = .tripped ∧ x.cooldown ≤ x.timer ∧ x.faultActive = false)

/-- The proving time has been reached with a trip count to clear (R90). -/
def FeedRecord.provingDue (provingTime : Nat) (x : FeedRecord) : Bool :=
  decide (x.state = .on ∧ provingTime ≤ x.proving ∧ x.tripCount ≠ 0)

/-- MAIN_n is switched on (R85). -/
def FeedControl.switchMain (f : FeedIx) (fc : FeedControl) : FeedControl :=
  fc.upd f fun x => { x with mainOn := true }

/-- A feed reaches ON; the consideration of admission follows the reached ON notice (R85). -/
def FeedControl.reachOn (f : FeedIx) (fc : FeedControl) : FeedControl :=
  fc.upd f fun x => { x with state := .on, mainOn := false, proving := 0 }

/-- The trip count is cleared (R90). -/
def FeedControl.prove (f : FeedIx) (fc : FeedControl) : FeedControl :=
  fc.upd f fun x => { x with tripCount := 0 }

/-- A feed's cooldown leads back to WAITING: its trip count is below the latched trip limit (R89). -/
def FeedRecord.returns (x : FeedRecord) : Bool := decide (x.tripCount < x.tripLimit)

/-- The end of a cooldown (R89). -/
def FeedControl.endCooldown (up : Bool) (f : FeedIx) (fc : FeedControl) : FeedControl :=
  if (fc.feed[f]).returns then (fc.join f).consider up else fc.upd f fun x => { x with state := .lockedOff }

/-! ### Around a gap (section 4.5) -/

/-- A gap declaration: every feed in SOFTSTART enters SHED, and a pending budget takes force (R91). -/
def FeedControl.declareGap (fc : FeedControl) : FeedControl :=
  FeedControl.settleBudget
    { fc with feed := fc.feed.map fun x => if x.state = .softstart then { x with state := .shed, mainOn := false } else x }

/-- The shed command: every feed in ON enters SHED (R92). -/
def FeedControl.shedAll (fc : FeedControl) : FeedControl :=
  { fc with feed := fc.feed.map fun x => if x.state = .on then { x with state := .shed } else x }

/-- The feeds in SHED, in index order. -/
def FeedControl.shedFeeds (fc : FeedControl) : List FeedIx :=
  (List.finRange Config.feeds).filter fun f => decide (fc.feed[f].state = .shed)

/-- Supply up: every feed in SHED joins the admission list in index order, and admission is considered with the supply
UP (R93). -/
def FeedControl.supplyUp (fc : FeedControl) : FeedControl :=
  (fc.shedFeeds.foldl (fun c f => c.join f) fc).consider true

/-! ### Feed requests (section 4.7) -/

/-- An answer is written to the feed's status (R95). -/
def FeedControl.answer (f : FeedIx) (tag : Byte) (code : AnswerCode) (fc : FeedControl) : FeedControl :=
  fc.upd f fun x => { x with answerTag := tag, answerCode := code }

/-- The effect and the answer of FEED_ON (R96). -/
def FeedControl.switchOn (up : Bool) (f : FeedIx) (fc : FeedControl) : FeedControl × AnswerCode :=
  match fc.feed[f].state with
  | .off => ((fc.join f).consider up, .done)
  | .waiting | .softstart | .on => (fc, .done)
  | .shed | .tripped | .lockedOff => (fc, .refusedState)

/-- The effect of FEED_OFF, which is answered DONE (R97). -/
def FeedControl.switchOff (up : Bool) (f : FeedIx) (fc : FeedControl) : FeedControl :=
  let off := FeedControl.upd f (fun x => { x with state := .off, mainOn := false })
    { fc with admission := fc.admission.erase f }
  match fc.feed[f].state with
  | .waiting => off.consider up
  | .softstart => off.afterLeave up
  | _ => off

/-- FEED_OFF gives the left ON notice (R97). -/
def FeedRecord.served (x : FeedRecord) : Bool := decide (x.state = .softstart ∨ x.state = .on)

/-- The effect and the answer of FEED_CLEAR (R98). -/
def FeedControl.clear (up : Bool) (f : FeedIx) (fc : FeedControl) : FeedControl × AnswerCode :=
  if fc.feed[f].state = .lockedOff then
    if fc.feed[f].faultActive then (fc, .faultActive)
    else (((fc.upd f fun x => { x with tripCount := 0 }).join f).consider up, .done)
  else (fc, .refusedState)

/-! ### Restart (R101) -/

/-- A feed after a controller restart: one kept ON keeps its state but for the offered configuration and the answer
fields; every other is as at power-on reset (R101, log 19). -/
def FeedRecord.restarted (keep : Bool) (x : FeedRecord) : FeedRecord :=
  if keep ∧ x.state = .on then
    { x with offered := FeedConfig.reset, answerTag := 0, answerCode := .blank, mainOn := false }
  else FeedRecord.reset

/-- The Feed Controller after a controller restart (R101). -/
def FeedControl.restarted (keep : Bool) (fc : FeedControl) : FeedControl :=
  { FeedControl.reset with feed := fc.feed.map (FeedRecord.restarted keep) }

end Machine

end Sys2Proof
end

