-- ==== Sys2Proof/Machine/SupplyOps.lean ====
section
/-! DEFINITION. The Supply Monitor's own operations: the LINE_OK filter, its timers, the capture, the classification and
the gap record (chapter 1). -/

namespace Sys2Proof

namespace Machine

/-! ### The LINE_OK filter (R3, R4) -/

/-- What the filter reports. -/
inductive SupplyReport where
  | initial (present : Bool)
  | loss
  | back
  deriving DecidableEq, Repr

/-- The filter takes one sample (R3, R4). -/
def SupplyFilter.sample (level : Bool) (x : SupplyFilter) : SupplyFilter × Option SupplyReport :=
  match x.accepted with
  | none =>
    if x.candidate = some level then ({ x with accepted := some level, differing := false }, some (.initial level))
    else ({ x with candidate := some level }, none)
  | some a =>
    if level = a then ({ x with differing := false }, none)
    else if x.differing then
      ({ x with accepted := some level, differing := false }, some (if level then .back else .loss))
    else ({ x with differing := true }, none)

/-! ### Timers and changes of the supply state (R6 to R14) -/

/-- The timers that run in the present state advance (R6, R7). -/
def Monitor.advance (m : Monitor) : Monitor :=
  { m with
    gapCounter :=
      match m.supply with
      | .pending | .gap | .settling => satInc m.gapCounter
      | .startup | .up => m.gapCounter
    settleTimer := if m.supply = .settling then satInc m.settleTimer else m.settleTimer }

/-- The supply state becomes UP and the gap counter is cleared (R9, R11, R15). -/
def Monitor.toUp (m : Monitor) : Monitor := { m with supply := .up, gapCounter := 0 }

/-- A loss is accepted in UP (R8). -/
def Monitor.lose (m : Monitor) : Monitor := { m with supply := .pending, gapCounter := 0 }

/-- A return is accepted in PENDING (R9). -/
def Monitor.flicker (m : Monitor) : Monitor := { m.toUp with flickers := satInc m.flickers }

/-- A gap is declared at an uptime (R10). -/
def Monitor.declare (now : Word) (m : Monitor) : Monitor :=
  { m with supply := .gap, merged := false, shed := false, declaredAt := now }

/-- The first accepted level is absent (R11). -/
def Monitor.beginAbsent (now : Word) (m : Monitor) : Monitor := { m.declare now with gapCounter := limit16 }

/-- A return is accepted in GAP (R13). -/
def Monitor.settle (m : Monitor) : Monitor :=
  { m with
    supply := .settling
    settleTimer := 0
    capture := some { duration := m.gapCounter, overRange := decide (m.gapCounter = limit16) } }

/-- A loss is accepted in SETTLING (R14). -/
def Monitor.merge (m : Monitor) : Monitor := { m with supply := .gap, capture := none, merged := true }

/-- The comparison of the present state is met (R7, R10, R12, R15), with the step it brings about. -/
def Monitor.dueStep (x : Settings) (m : Monitor) : Option Due :=
  match m.supply with
  | .pending => if x.minGap ≤ m.gapCounter then some .gapDeclared else none
  | .gap => if m.shed = false ∧ x.shedTime ≤ m.gapCounter then some .shedCommand else none
  | .settling => if x.settle ≤ m.settleTimer then some .settlingEnd else none
  | .startup | .up => none

/-! ### Classification (R21, R22) -/

/-- The ride threshold (R21). -/
def rideThreshold (x : Settings) (c : UnitConfig) : Nat := c.ride * x.derate / 256

/-- The hold threshold (R21). -/
def holdThreshold (x : Settings) (c : UnitConfig) : Nat := max (c.retain * x.derate / 256) (rideThreshold x c)

/-- The class of a unit for a capture (R22). -/
def classify (x : Settings) (c : Capture) (u : UnitRecord) : GapClass :=
  if u.forceCold ∨ u.imageValid = false ∨ c.overRange then .cold
  else if c.duration + x.guard ≤ rideThreshold x u.config then .rode
  else if c.duration + x.guard ≤ holdThreshold x u.config then .warm
  else .cold

/-- The class the Supply Monitor hands over for a unit, where it is classified (R23). -/
def handedClass (x : Settings) (c : Capture) (u : UnitRecord) : Option GapClass :=
  if u.run = .riding ∧ u.probePending = false then some (classify x c u) else none

/-! ### The gap record (R18, R19) -/

/-- The units given a class. -/
def classCount (classes : List (Option GapClass)) (c : GapClass) : Nat := (classes.filter fun x => decide (x = some c)).length

/-- The record of the gap that has ended (R18). -/
def Monitor.record (c : Capture) (classes : List (Option GapClass)) (m : Monitor) : GapRecord :=
  { duration := c.duration
    overRange := c.overRange
    merged := m.merged
    shed := m.shed
    noneCount := classCount classes .rode
    warmCount := classCount classes .warm
    coldCount := classCount classes .cold
    declaredAt := m.declaredAt }

/-- A record is appended; of a list that already holds 8, the oldest is removed first (R19). -/
def appendRecord (l : List GapRecord) (g : GapRecord) : List GapRecord :=
  (if gapListLimit ≤ l.length then l.drop (l.length + 1 - gapListLimit) else l) ++ [g]

/-- Settling ends with a record (R15). -/
def Monitor.endSettling (g : GapRecord) (m : Monitor) : Monitor :=
  { m.toUp with capture := none, gapList := appendRecord m.gapList g }

end Machine

end Sys2Proof
end

