-- ==== Sys2Proof/Machine/LineOps.lean ====
section
/-! DEFINITION. One line's own operations: the receive FIFO and the frame assembler, entering IDLE and FAULTED,
abandonment and stopping, the wait list, and the two block buffers. -/

namespace Sys2Proof

namespace Machine

/-! ### Lengths of time on a line -/

/-- The first-reply timeout of a latched configuration, in reference clocks (R102). -/
def firstReplyClocks (c : LineConfig) : Nat := c.firstReply * charClocks c.divisor

/-- The gap limit of a latched configuration, in reference clocks (R102). -/
def gapClocks (c : LineConfig) : Nat := c.gapLimit * charClocks c.divisor

/-- Two character times: a half of QUIET, and the high level that ends FAULTED (R111, R118). -/
def twoCharClocks (c : LineConfig) : Nat := twoCharacters * charClocks c.divisor

/-! ### The frame assembler (R113, R115) -/

/-- The assembler takes no character: it holds a clean frame, or the discard has run its length (R115, R116). -/
def Assembly.blocked : Assembly → Bool
  | .held _ => true
  | .discarding n => decide (discardLimit ≤ n)
  | _ => false

/-- What the characters taken so far make, the last of them just taken and none of them flagged (R113, R115). -/
def assembled (bytes : List Byte) : Assembly :=
  if byteAt bytes 0 ≠ leadCharacter then .discarding bytes.length
  else if bytes.length < 5 then .collecting bytes
  else if replyPayloadLimit < receivedLength bytes then .discarding bytes.length
  else if bytes.length < 7 + receivedLength bytes then .collecting bytes
  else if receivedCrcRight bytes then .held bytes
  else .discarding bytes.length

/-- The assembler takes a character (R113, R115). -/
def Assembly.take (c : RxChar) : Assembly → Assembly
  | .idle => if rxFlagged c then .discarding 1 else assembled [c.data]
  | .collecting bytes => if rxFlagged c then .discarding (bytes.length + 1) else assembled (bytes ++ [c.data])
  | .held bytes => .held bytes
  | .discarding n => .discarding (n + 1)

/-- The assembler takes characters, oldest first, while it is not blocked; what it leaves stays. -/
def Assembly.drain : Assembly → List RxChar → Assembly × List RxChar
  | a, [] => (a, [])
  | a, c :: rest => if a.blocked then (a, c :: rest) else Assembly.drain (a.take c) rest

/-- Characters waiting in the FIFO and the shift register, oldest first (R108). -/
def LineRecord.waiting (l : LineRecord) : List RxChar := l.fifo ++ l.shift.toList

/-- The assembler takes what it can; the FIFO keeps up to 8 of the rest and the shift register one (R108). -/
def LineRecord.pump (l : LineRecord) : LineRecord :=
  let d := l.assembly.drain l.waiting
  { l with assembly := d.1, fifo := d.2.take fifoLimit, shift := (d.2.drop fifoLimit).head? }

/-- A frame is being assembled: some of its characters have been taken, and more are to come (R114). -/
def Assembly.underWay : Assembly → Bool
  | .collecting _ => true
  | _ => false

/-! ### States of a line -/

/-- The FIFO is emptied other than by the assembler: its characters, and one in the shift register, are strays (R108). -/
def LineRecord.spill (l : LineRecord) : LineRecord :=
  { l with strays := satAdd l.strays l.waiting.length, fifo := [], shift := none }

/-- What a cut leaves on the wire: the character of the frame in progress, or the rest of the break half of QUIET; in the
other states what an earlier cut left (R110, R120, R122, log 8). -/
def LineRecord.cutTail (l : LineRecord) : Tail :=
  match l.state with
  | .sending =>
    match l.pausing, l.frame with
    | false, some f =>
      match (frameCharacters f)[l.phaseTimer / charClocks l.latched.divisor]? with
      | some b =>
        { levels := characterBits b
          bit := bitClocks l.latched.divisor
          left := charClocks l.latched.divisor - l.phaseTimer % charClocks l.latched.divisor }
      | none => Tail.over
    | _, _ => Tail.over
  | .quiet =>
    if l.idleHalf then Tail.over
    else { levels := [false], bit := twoCharClocks l.latched, left := twoCharClocks l.latched - l.phaseTimer }
  | .awaiting | .receiving => Tail.over
  | .idle | .faulted | .stopped => l.tail

/-- The attempt on the line is over: no frame, no assembly, no window, no timer. -/
def LineRecord.clearAttempt (l : LineRecord) : LineRecord :=
  { l with
    pausing := false
    idleHalf := false
    frame := none
    abandoned := false
    assembly := .idle
    phaseTimer := 0
    firstReply := none
    interChar := none
    silence := none
    high := none }

/-- The line enters IDLE. -/
def LineRecord.toIdle (l : LineRecord) : LineRecord := { l.clearAttempt with state := .idle }

/-- The line enters FAULTED; the character being transmitted is completed, and the frame in assembly is dropped (R110). The
dropped characters are not counted, those of a frame of an abandoned attempt included (log 38). -/
def LineRecord.toFaulted (l : LineRecord) : LineRecord :=
  { l.spill.clearAttempt with state := .faulted, faults := satInc l.faults, high := some 0, tail := l.cutTail }

/-- The transaction layer withdraws the attempt: the record is empty, and the line finishes what is on the wire (R119,
R132). Characters that the assembler has taken in AWAITING are dropped uncounted (log 11). -/
def LineRecord.abandon (l : LineRecord) : LineRecord :=
  let m := { l with txn := none }
  match l.state with
  | .quiet | .sending | .receiving => { m with abandoned := true }
  | .awaiting => m.toIdle
  | .idle | .faulted | .stopped => m

/-- The transfer slot is freed: both buffers are emptied and the running CRC-32 is dropped (R151). -/
def LineRecord.clearSlot (l : LineRecord) : LineRecord :=
  { l with slot := .free, buffer0 := none, buffer1 := none, crc := none, waitBlock := none }

/-- All work on the line ends: attempt and transaction, FIFO, wait list, group and transfer; the character or break on
the wire is completed (R120, R122, R133). The frame in assembly is dropped uncounted, that of an abandoned attempt
included (log 38). -/
def LineRecord.halt (l : LineRecord) : LineRecord :=
  { l.spill.clearAttempt.clearSlot with txn := none, waitList := [], tail := l.cutTail }

/-- A gap declaration stops the line (R120): RXD_n is not sampled, and a character partly received is dropped without
being counted (R107). -/
def LineRecord.stopForGap (l : LineRecord) : LineRecord :=
  { l.halt with state := .stopped, receiving := none, hunt := .waitHigh, rxClock := 0 }

/-- The controller is stopped (R122). -/
def LineRecord.stopForHost (l : LineRecord) : LineRecord :=
  { l.halt with state := if l.state = .stopped then .stopped else .idle, quietOwed := true }

/-- Supply up: a stopped line enters IDLE, and a QUIET precedes its next frame (R16, R118, R120). -/
def LineRecord.supplyUp (l : LineRecord) : LineRecord :=
  if l.state = .stopped then { l.toIdle with quietOwed := true } else l

/-! ### The wait list (R134, R135) -/

/-- The entry of a unit. -/
def Entry.isUnit (u : UnitIx) : Entry → Bool
  | .single v _ => decide (v = u)
  | .group => false

/-- The unit has an entry on the line's wait list. -/
def LineRecord.waits (u : UnitIx) (l : LineRecord) : Bool := l.waitList.any (Entry.isUnit u)

/-- The unit is the contender of the outstanding transaction. -/
def LineRecord.serves (u : UnitIx) (l : LineRecord) : Bool :=
  match l.txn with
  | some t =>
    match t.contender with
    | .single v _ => decide (v = u)
    | .group _ => false
  | none => false

/-- The group's transaction is outstanding. -/
def LineRecord.servesGroup (l : LineRecord) : Bool :=
  match l.txn with
  | some t =>
    match t.contender with
    | .single _ _ => false
    | .group _ => true
  | none => false

/-- The group's transaction addressed to the unit is outstanding. -/
def LineRecord.servesMember (u : UnitIx) (l : LineRecord) : Bool :=
  match l.txn with
  | some t => decide (t.contender = .group (some u))
  | none => false

/-- A unit's entry is removed, and those behind it keep their order (R132). -/
def LineRecord.unlist (u : UnitIx) (l : LineRecord) : LineRecord :=
  { l with waitList := l.waitList.filter fun e => !e.isUnit u }

/-- Work joins the list at its tail, or replaces the work of the unit's entry, which keeps its place (R135). -/
def LineRecord.list (u : UnitIx) (w : Work) (l : LineRecord) : LineRecord :=
  if l.waits u then { l with waitList := l.waitList.map fun e => if e.isUnit u then .single u w else e }
  else { l with waitList := l.waitList ++ [.single u w] }

/-- The group entry joins the list at its tail (R137). -/
def LineRecord.listGroup (l : LineRecord) : LineRecord :=
  if Entry.group ∈ l.waitList then l else { l with waitList := l.waitList ++ [.group] }

/-! ### Transfer slot and buffers (R148, R164) -/

/-- The line's group record, if the slot is GROUP. -/
def LineRecord.groupRecord (l : LineRecord) : Option Group :=
  match l.slot with
  | .group g => some g
  | _ => none

/-- A round of the group is under way. -/
def LineRecord.midRound (l : LineRecord) : Bool :=
  match l.slot with
  | .group g => g.inRound
  | _ => false

/-- A buffer holds the block. -/
def holds (b : Nat) : Option Block → Bool
  | some x => decide (x.index = b)
  | none => false

/-- The data of a block held in a buffer. -/
def LineRecord.heldBlock (b : Nat) (l : LineRecord) : Option (List Byte) :=
  if holds b l.buffer0 then l.buffer0.map Block.data
  else if holds b l.buffer1 then l.buffer1.map Block.data
  else none

/-- The block's buffer is emptied (R164). -/
def LineRecord.dropBlock (b : Nat) (l : LineRecord) : LineRecord :=
  { l with
    buffer0 := if holds b l.buffer0 then none else l.buffer0
    buffer1 := if holds b l.buffer1 then none else l.buffer1 }

/-- A fetched block is placed in the buffer its request named (R165). -/
def LineRecord.placeBlock (second : Bool) (b : Block) (l : LineRecord) : LineRecord :=
  if second then { l with buffer1 := some b } else { l with buffer0 := some b }

/-- A member of a group. -/
def Group.isMember (u : UnitIx) (g : Group) : Bool := g.members.any fun m => decide (m.unit = u)

/-- A member is changed. -/
def Group.updMember (u : UnitIx) (f : Member → Member) (g : Group) : Group :=
  { g with members := g.members.map fun m => if m.unit = u then f m else m }

/-- A member is taken off the member list, with its missed list and silence count (R162). -/
def Group.without (u : UnitIx) (g : Group) : Group :=
  { g with
    members := g.members.filter fun m => decide (m.unit ≠ u)
    todo := g.todo.filter fun t => decide (t ≠ some u) }

/-- The missed list of a member. -/
def Group.missedOf (u : UnitIx) (g : Group) : List Nat :=
  match g.members.find? fun m => decide (m.unit = u) with
  | some m => m.missed
  | none => []

/-- The next block to repair: the lowest missed block of the first member whose list is not empty (R160). -/
def Group.nextRepair (g : Group) : Option (UnitIx × Nat) :=
  g.members.findSome? fun m => m.missed.head?.map fun b => (m.unit, b)

end Machine

end Sys2Proof
end

