-- ==== Sys2Proof/Machine/RunOps.lean ====
section
/-! DEFINITION. What the runs do to the record, the line and the transfer of their unit: posting and withdrawing work,
the transfer slot and the group, latching an image, starting and failing a run, adopting and capturing contexts
(chapters 2, 3, 6, 7). Each is a function of the runtime alone. -/

namespace Sys2Proof

namespace Machine

/-! ### Small changes of a unit record -/

/-- The run timers stop (R50). -/
def UnitRecord.stopTimers (x : UnitRecord) : UnitRecord :=
  { x with bootTimer := none, attendTimer := none, pollTimer := none, bootHeld := false }

/-- The run class is changed by the run itself (R35). -/
def UnitRecord.derive (c : GapClass) (x : UnitRecord) : UnitRecord := { x with runClass := c, origin := .derived }

/-- The class a unit that must be attended again takes: COLD where the part does not believe it holds its image, else
WARM (R30, R41, R63, R69). -/
def UnitRecord.attendClass (x : UnitRecord) : GapClass := if x.forceCold || !x.imageValid then .cold else .warm

/-- A context is accepted into the store: capture, adoption or edit (R40). -/
def UnitRecord.store (c : Context) (x : UnitRecord) : UnitRecord :=
  { x with context := c, contextPresent := true, contextSeq := x.contextSeq + 1 }

/-- A prediction miss (R36). -/
def UnitRecord.miss (x : UnitRecord) : UnitRecord := { x with misses := satInc x.misses }

/-- A unit is managed (section 2.1). -/
def UnitRecord.managed (x : UnitRecord) : Bool := decide (x.run ≠ .unmanaged)

/-- The poll timer starts from 0 where the unit is in RUNNING or HELD (R50). -/
def UnitRecord.restartPoll (x : UnitRecord) : UnitRecord :=
  if x.run = .running ∨ x.run = .held then { x with pollTimer := some 0 } else x

/-- A block is confirmed; the mirror follows at multiples of 16 and at the block count (R168). -/
def UnitRecord.confirm (x : UnitRecord) : UnitRecord :=
  let n := x.confirmed + 1
  if n % 16 = 0 ∨ n = x.image.blockCount then { x with confirmed := n, progressDone := n }
  else { x with confirmed := n }

/-- An IMAGE_BEGIN is acknowledged (R37, R168). -/
def UnitRecord.beginAcked (x : UnitRecord) : UnitRecord :=
  { x with loads := satInc x.loads, confirmed := 0, progressDone := 0, progressTotal := x.image.blockCount }

/-! ### Posting work (R135) -/

/-- A unit's run posts line work: held with the unit while a transaction of it is outstanding, else on the wait list of
its latched line (R135). -/
def Runtime.post (u : UnitIx) (w : Work) (r : Runtime) : Runtime :=
  if (r.lines[r.units[u].config.line]).serves u then r.updUnit u fun x => { x with heldWork := some w }
  else r.updLine r.units[u].config.line (LineRecord.list u w)

/-- The unit has line work waiting, outstanding or held (R50, R68). -/
def Runtime.busy (u : UnitIx) (r : Runtime) : Bool :=
  (r.lines[r.units[u].config.line]).waits u || (r.lines[r.units[u].config.line]).serves u

/-! ### The transfer slot (R148, R151) -/

/-- The latched image entry of the line's transfer. -/
def Runtime.transferImage (k : LineIx) (r : Runtime) : Option LatchedImage :=
  match r.lines[k].slot with
  | .free => none
  | .alone u => some r.units[u].image
  | .group g => some g.image

/-- A line asks for a block of its transfer (R164): the request joins the fetch list at its end. It names buffer 0 where
that holds nothing (log 35), and the block's address is taken modulo 2^64 (log 34). -/
def Runtime.askBlock (k : LineIx) (b : Nat) (firstPass : Bool) (r : Runtime) : Runtime :=
  match r.transferImage k with
  | none => r
  | some m =>
    { r with
      fetchList := r.fetchList ++
        [{ line := k, block := b, second := r.lines[k].buffer0.isSome, firstPass := firstPass
           address := m.address + BitVec.ofNat 64 (b * blockSize m.sizeCode), length := blockLength m b }] }

/-- The read burst of a line's fetch, if one is outstanding, is no longer wanted (R151). -/
def dropFetch (k : LineIx) (b : ReadBurst) : ReadBurst :=
  match b.user with
  | .fetch q w => { b with user := .fetch q (w && decide (q.line ≠ k)) }
  | _ => b

/-- The line's slot becomes FREE: its fetch is dropped, its buffers are emptied, and every unit of the line at SLOT_WAIT
posts its begin work (R151). -/
def Runtime.freeSlot (k : LineIx) (r : Runtime) : Runtime :=
  Runtime.eachUnit
    (fun u r =>
      if r.units[u].loadStep = .slotWait ∧ r.units[u].config.line = k then
        (r.updUnit u fun x => { x with loadStep := .beginPosted }).post u .beginLoad
      else r)
    { r.updLine k LineRecord.clearSlot with
      fetchList := r.fetchList.filter fun q => decide (q.line ≠ k)
      read := r.read.map (dropFetch k) }

/-- The group is dissolved: its entry leaves the wait list, its outstanding transaction is abandoned, and the slot
becomes FREE (R163). Its members' load steps end. -/
def Runtime.dissolve (k : LineIx) (r : Runtime) : Runtime :=
  match r.lines[k].groupRecord with
  | none => r
  | some g =>
    let r1 := g.members.foldl (fun r m => r.updUnit m.unit fun x => { x with loadStep := .idle }) r
    Runtime.freeSlot k
      (r1.updLine k fun l =>
        let l1 := if l.servesGroup then l.abandon else l
        { l1 with waitList := l1.waitList.filter fun e => decide (e ≠ .group) })

/-- A member is taken off the member list: a group transaction addressed to it is abandoned (R162). -/
def Runtime.takeOffGroup (k : LineIx) (u : UnitIx) (g : Group) (r : Runtime) : Runtime :=
  (r.updUnit u fun x => { x with loadStep := .idle }).updLine k fun l =>
    let l1 := if l.servesMember u then l.abandon else l
    { l1 with slot := .group (g.without u) }

/-- A group whose member list has become empty is dissolved (R163). -/
def Runtime.dissolveEmpty (k : LineIx) (r : Runtime) : Runtime :=
  match r.lines[k].groupRecord with
  | none => r
  | some g => if g.members.isEmpty then r.dissolve k else r

/-- A run acts, a member having left the group first; the group is dissolved after it where the member was the last (R161
to R163). So the work that the run posts joins before the begin works that the freed slot lets post, and a load step that it
takes is at SLOT_WAIT until the dissolution (log 27). -/
def Runtime.leaveGroup (k : LineIx) (u : UnitIx) (act : Runtime → Runtime) (r : Runtime) : Runtime :=
  match r.lines[k].groupRecord with
  | none => act r
  | some g => if g.isMember u then (act (r.takeOffGroup k u g)).dissolveEmpty k else act r

/-! ### Withdrawal (R132, R170) -/

/-- The unit is withdrawn from its line: off the wait list, its transaction abandoned, its held work dropped, and out of
its line's transfer (R132, R151, R162, R170). -/
def Runtime.withdraw (u : UnitIx) (r : Runtime) : Runtime :=
  let k := r.units[u].config.line
  let r1 := (r.updLine k fun l => if l.serves u then (l.unlist u).abandon else l.unlist u)
  let r2 := r1.leaveGroup k u id
  let r3 := r2.updUnit u fun x => { x with heldWork := none, loadStep := .idle }
  if r3.lines[k].slot = .alone u then r3.freeSlot k else r3

/-! ### Ending a run -/

/-- A run ends in FAILED with a cause (R71). -/
def Runtime.failRun (u : UnitIx) (c : FailureCause) (r : Runtime) : Runtime :=
  let r1 := (r.withdraw u).updUnit u fun x =>
    { x.stopTimers with run := .failed, cause := c, probePending := false }
  if (r1.units[u]).enlistOrReload then r1.closeInFlight u .failed else r1

/-! ### Latching an image (R147, R167) -/

/-- A latch of an index clears a suspect mark set for another edition than the copy's (R147, R167). -/
def Runtime.refreshSuspect (i : ImageIx) (r : Runtime) : Runtime :=
  match r.suspect[i] with
  | none => r
  | some e => if r.directory[i].edition = e then r else r.setSuspect i none

/-- The checks of a latch: the entry is valid, carries no suspect mark and is for the unit's kind (R147). -/
def Runtime.latchPasses (i : ImageIx) (kind : UnitKind) (r : Runtime) : Bool :=
  directoryValid r.directory[i] && (r.suspect[i]).isNone && decide (kindOfCode r.directory[i].kindCode = kind)

/-- A passed latch replaces the record's latched image entry; image-valid becomes false where the edition or the CRC-32
differs from the latch before (R29). -/
def UnitRecord.relatch (m : LatchedImage) (x : UnitRecord) : UnitRecord :=
  { x with image := m, imageValid := x.imageValid && decide (m.edition = x.image.edition ∧ m.crc = x.image.crc) }

/-- The unit's image entry is latched from the directory copy; true where the checks pass (R147). -/
def Runtime.latch (u : UnitIx) (r : Runtime) : Runtime × Bool :=
  let i := r.units[u].config.image
  let r1 := r.refreshSuspect i
  if r1.latchPasses i r1.units[u].config.kind then
    (r1.updUnit u (UnitRecord.relatch (latchedImage i r1.directory[i])), true)
  else (r1, false)

/-! ### Starting a run (R52) -/

/-- Where the latch of a run start has cleared image-valid, a class NONE or WARM becomes COLD (R52). -/
def UnitRecord.startRun (wasValid : Bool) (x : UnitRecord) : UnitRecord :=
  if wasValid && !x.imageValid && decide (x.runClass ≠ .cold) then x.derive .cold else x

/-- A run starts: its verdict count and its alone mark are cleared (R149, R169). -/
def UnitRecord.freshRun (x : UnitRecord) : UnitRecord := { x with verdicts := 0, aloneMark := false }

/-- A run start: the latch, and where its checks fail the run ends in FAILED with IMAGE_CHANGED; otherwise the run goes
on as given (R52, R149, R169). -/
def Runtime.runStart (u : UnitIx) (go : Runtime → Runtime) (r : Runtime) : Runtime :=
  let latched := (r.updUnit u UnitRecord.freshRun).latch u
  if latched.2 then go (latched.1.updUnit u (UnitRecord.startRun r.units[u].imageValid))
  else latched.1.failRun u .imageChanged

/-- The unit enters PROBING or ATTENDING: the boot timer starts, and the first HELLO_ASK attempt is posted (R50, R60). -/
def Runtime.contact (u : UnitIx) (st : RunState) (r : Runtime) : Runtime :=
  (r.updUnit u fun x => { x.stopTimers with run := st, bootTimer := some 0 }).post u .hello

/-- The unit enters CHECKING and posts its STATUS_ASK (R56, R63). -/
def Runtime.check (u : UnitIx) (r : Runtime) : Runtime :=
  (r.updUnit u fun x => { x.stopTimers with run := .checking }).post u .status

/-- The unit proceeds from RIDING or WAIT_FEED (R56). -/
def Runtime.proceed (u : UnitIx) (r : Runtime) : Runtime :=
  r.runStart u fun r =>
    if r.units[u].probePending then r.contact u .probing
    else if r.units[u].runClass = .rode then r.check u
    else r.contact u .attending

/-- A RUNNING or HELD unit is lost: an edit or release in flight is answered FAILED, and the unit is attended again
(R69, R70). -/
def Runtime.lose (u : UnitIx) (r : Runtime) : Runtime :=
  let r1 := if (r.units[u]).editOrRelease then r.closeInFlight u .failed else r
  let r2 := (r1.withdraw u).updUnit u fun x => x.stopTimers.derive x.attendClass
  r2.runStart u fun r => r.contact u .attending

/-! ### Loading (R149) -/

/-- The unit takes a load step (R149). -/
def Runtime.takeLoadStep (u : UnitIx) (r : Runtime) : Runtime :=
  if r.mode = .areaFault then r.failRun u .area
  else if r.lines[r.units[u].config.line].slot = .free then
    (r.updUnit u fun x => { x with loadStep := .beginPosted }).post u .beginLoad
  else r.updUnit u fun x => { x with loadStep := .slotWait }

/-- The unit enters LOADING (R64). -/
def Runtime.enterLoading (u : UnitIx) (r : Runtime) : Runtime :=
  (r.updUnit u fun x => { x.stopTimers with run := .loading, imageValid := false }).takeLoadStep u

/-- A member leaves the group to load alone (R156, R158): its alone mark is set, and it takes a load step. -/
def Runtime.leaveToLoadAlone (k : LineIx) (u : UnitIx) (r : Runtime) : Runtime :=
  (r.updUnit u fun x => { x with aloneMark := true }).leaveGroup k u (Runtime.takeLoadStep u)

/-! ### Restoring, running -/

/-- The unit enters RESTORING; a STATUS_ASK comes before the put where one is called for (R43, R65). -/
def Runtime.enterRestoring (u : UnitIx) (ask : Bool) (r : Runtime) : Runtime :=
  (r.updUnit u fun x => { x.stopTimers with run := .restoring }).post u (if ask then .status else .put .restore)

/-- The unit enters RUNNING or HELD (R37, R50, R66). -/
def UnitRecord.serve (st : RunState) (x : UnitRecord) : UnitRecord :=
  { x.stopTimers with run := st, pollMisses := 0, pollTimer := some 0, cause := .blank }

/-- A put of the stored context is posted where an edit is still to be delivered (R33, R66). -/
def Runtime.postPendingEdit (u : UnitIx) (r : Runtime) : Runtime :=
  if r.units[u].editPending then r.post u (.put .pendingEdit) else r

/-- Image-valid after a HELLO is taken: it reports the latched image intact (R32). -/
def Hello.matches (m : LatchedImage) (h : Hello) : Bool :=
  h.intact && decide (h.edition = m.edition ∧ h.crc = m.crc)

/-- A retained context is adopted where no edit is pending (R43). -/
def UnitRecord.adopt (c : Option Context) (x : UnitRecord) : UnitRecord :=
  match c with
  | some c => if x.editPending then x else x.store c
  | none => x

/-- A HELLO is taken in PROBING (R61). -/
def Runtime.probeHello (u : UnitIx) (h : Hello) (r : Runtime) : Runtime :=
  if r.units[u].forceCold || !h.matches r.units[u].image then r.enterLoading u
  else
    (r.updUnit u (UnitRecord.adopt h.retained)).enterRestoring u
      (h.retained.isNone && !r.units[u].contextPresent)

/-- The HELLO shows that a classified WARM unit fared worse than its class (R36, R62). -/
def helloMisses (x : UnitRecord) (h : Hello) : Bool :=
  decide (x.runClass = .warm ∧ x.origin = .classified)
    && (!h.intact || (decide (h.edition = x.image.edition) && decide (h.crc ≠ x.image.crc)))

/-- A HELLO is taken in ATTENDING (R62). -/
def Runtime.attendHello (u : UnitIx) (h : Hello) (r : Runtime) : Runtime :=
  if r.units[u].runClass = .cold then r.enterLoading u
  else if h.matches r.units[u].image then
    (r.updUnit u (UnitRecord.adopt h.retained)).enterRestoring u false
  else
    (r.updUnit u fun x => if helloMisses x h then x.miss else x).enterLoading u

/-- A HELLO is taken: the boot timer stops, the boot count is stored, image-valid follows what it reports, and the run
goes on by its state (R32, R34, R60). -/
def Runtime.takeHello (u : UnitIx) (h : Hello) (r : Runtime) : Runtime :=
  let r1 := r.updUnit u fun x =>
    { x.stopTimers with bootCount := some h.bootCount, imageValid := h.matches x.image }
  if r.units[u].run = .probing then r1.probeHello u h
  else if r.units[u].run = .attending then r1.attendHello u h
  else r1

/-- A STATUS is accepted as a capture (R41). -/
def UnitRecord.capture (boot : Half) (c : Context) (x : UnitRecord) : UnitRecord :=
  { x.store c with bootCount := some boot, pollMisses := 0 }

end Machine

end Sys2Proof
end

