-- ==== Sys2Proof/Machine/TxnOps.lean ====
section
/-! DEFINITION. Transactions: composing and sending the frame of an attempt, what each ending does to the run it serves
or to the group, the rounds of a group, retries and exhaustion, and the arbiter's choice (chapters 3, 6, 7). -/

namespace Sys2Proof

namespace Machine

/-- How a transaction ends (R127, R129, R130). -/
inductive TxnEnd where
  | reply (rep : Reply)
  | failed (f : Failure)
  | protocol
  | sent
  deriving DecidableEq, Repr

/-- The failure cause of an exhausted transaction (R71, R129). -/
def causeOf : Failure → FailureCause
  | .noReply => .noReply
  | .damaged => .damaged
  | .lineFault => .lineFault
  | .blockBad => .blockRejected

/-! ### Sending a frame (R104, R126, R138) -/

/-- The inhibit flag of a put (R45, R65, R70, R76): clear for a display and for a release, by the door policy in a
restore, otherwise set in HELD. -/
def putInhibit (p : PutPurpose) (x : UnitRecord) : Bool :=
  decide (x.config.kind = .door) &&
    match p with
    | .restore => !doorReleasable x.context
    | .release => false
    | .pendingEdit | .edit => decide (x.run = .held)

/-- The context a put carries (R39, R45). -/
def putContext (p : PutPurpose) (x : UnitRecord) : Context :=
  match p with
  | .restore => restoredContext x.config.kind x.context
  | .pendingEdit | .edit | .release => x.context

/-- The payload of a frame of a unit's own work (R138). -/
def singlePayload (x : UnitRecord) (w : Work) (block : Nat) (data : List Byte) : List Byte :=
  match w with
  | .hello | .poll | .status | .beginLoad => []
  | .put p => contextPutPayload (putContext p x) (putInhibit p x)
  | .imageBegin => imageBeginPayload x.image 0
  | .block => imageBlockPayload block 0 data
  | .imageEnd => wordBytesHigh x.image.crc

/-- The payload of a frame of a group (R138, R156, R157, R160, R161): the group tag stands in the IMAGE_BEGIN and in the
group frame, 0 in a repaired block. -/
def groupPayload (g : Group) (target : Option UnitIx) (kind : RequestKind) (block : Nat) (data : List Byte) :
    List Byte :=
  match kind with
  | .imageBegin => imageBeginPayload g.image g.tag
  | .imageBlock => imageBlockPayload block (if target.isNone then g.tag else 0) data
  | .blockAsk => halfBytesHigh (halfOf block)
  | .imageEnd => wordBytesHigh g.image.crc
  | .helloAsk | .statusAsk | .contextPut => []

/-- The payload of the outstanding transaction's next attempt, taken as the owner's state stands (R126). -/
def Runtime.payload (k : LineIx) (t : Transaction) (r : Runtime) : List Byte :=
  let data := ((r.lines[k]).heldBlock t.block).getD []
  match t.contender with
  | .single u w => singlePayload r.units[u] w t.block data
  | .group target =>
    match r.lines[k].groupRecord with
    | some g => groupPayload g target t.kind t.block data
    | none => []

/-- What the owner records with an attempt: the context sequence and the stored context, for a STATUS_ASK and a
CONTEXT_PUT (R41, R126). -/
def Runtime.recorded (t : Transaction) (r : Runtime) : Option (Word × Context) :=
  match t.contender with
  | .single u _ =>
    if t.kind = .statusAsk ∨ t.kind = .contextPut then some (r.units[u].contextSeq, r.units[u].context) else none
  | .group _ => none

/-- The frame of the outstanding transaction's attempt (R104, R130). -/
def Runtime.frameFor (k : LineIx) (t : Transaction) (r : Runtime) : TxFrame :=
  { address := t.address
    kind := t.kind
    seq := r.lines[k].seqCounter
    payload := r.payload k t
    replyExpected := decide (t.address ≠ groupAddress)
    pause := if t.address = groupAddress then twoCharacters else 0 }

/-- The block to ask for when a frame begins: the one after a block sent for the first time to the unit loading alone or
to the group (R157, R164). -/
def nextAsked (m : LatchedImage) (t : Transaction) : Option Nat :=
  let first :=
    match t.contender with
    | .single _ w => decide (w = .block) && t.attempts.isEmpty
    | .group target => target.isNone && decide (t.kind = .imageBlock) && t.attempts.isEmpty
  if first && decide (t.block + 1 < m.blockCount) then some (t.block + 1) else none

/-- The block after the transaction's is asked for where a moment of R164 has come. -/
def Runtime.askNext (k : LineIx) (t : Transaction) (r : Runtime) : Runtime :=
  match r.transferImage k with
  | none => r
  | some m =>
    match nextAsked m t with
    | some b => r.askBlock k b true
    | none => r

/-- The line begins the frame of the attempt it was handed (R104, R126); the frame takes over the wire from what a cut may
have left on it (log 8). -/
def Runtime.beginFrame (k : LineIx) (r : Runtime) : Runtime :=
  match r.lines[k].txn with
  | none => r
  | some t =>
    let f := r.frameFor k t
    let att : Attempt := { seq := f.seq, recorded := r.recorded t }
    Runtime.askNext k t
      (r.updLine k fun l =>
        { l with
          state := .sending
          pausing := false
          idleHalf := false
          frame := some f
          abandoned := false
          phaseTimer := 0
          tail := Tail.over
          seqCounter := l.seqCounter + 1
          txn := some { t with attempts := t.attempts ++ [att] } })

/-- An attempt is handed to a line in IDLE: QUIET first where it is owed (R117, R126). -/
def Runtime.handAttempt (k : LineIx) (r : Runtime) : Runtime :=
  let r1 := r.updLine k fun l => { l with txn := l.txn.map fun t => { t with made := t.made + 1 } }
  if r1.lines[k].quietOwed then
    r1.updLine k fun l => { l with state := .quiet, idleHalf := false, phaseTimer := 0, tail := Tail.over }
  else r1.beginFrame k

/-! ### Opening a transaction (R124, R130) -/

/-- The attempt limit of an ordinary transaction (R124, R125). -/
def Runtime.ordinaryLimit (r : Runtime) : Nat := 1 + r.settings.retryLimit

/-- The request kind of a unit's work (R130). -/
def workKind : Work → RequestKind
  | .hello => .helloAsk
  | .poll => .statusAsk
  | .status => .statusAsk
  | .put _ => .contextPut
  | .beginLoad => .imageBegin
  | .imageBegin => .imageBegin
  | .block => .imageBlock
  | .imageEnd => .imageEnd

/-- A unit's work is made as a single attempt (R130). -/
def singleAttempt : Work → Bool
  | .hello | .poll => true
  | .status | .put _ | .beginLoad | .imageBegin | .block | .imageEnd => false

/-- The transaction of a unit's own work; the next block of a load alone is the one after those confirmed (R153). -/
def Runtime.singleTxn (u : UnitIx) (w : Work) (r : Runtime) : Transaction :=
  { contender := .single u w
    kind := workKind w
    address := r.units[u].config.address
    block := r.units[u].confirmed
    limit := if singleAttempt w then 1 else r.ordinaryLimit
    made := 0
    lastFailure := none
    attempts := [] }

/-- The transaction of a step of a group's round (R130, R156, R157, R160, R161). -/
def Runtime.groupTxn (g : Group) (target : Option UnitIx) (r : Runtime) : Transaction :=
  match target with
  | none =>
    { contender := .group none, kind := .imageBlock, address := groupAddress, block := g.block, limit := 1, made := 0
      lastFailure := none, attempts := [] }
  | some u =>
    { contender := .group (some u)
      kind :=
        match g.phase with
        | .begin => .imageBegin
        | .blocks => .blockAsk
        | .repair => .imageBlock
        | .ending => .imageEnd
      address := r.units[u].config.address
      block :=
        match g.phase with
        | .repair => (g.missedOf u).headD 0
        | .begin | .blocks | .ending => g.block
      limit := if g.phase = .blocks then 1 else r.ordinaryLimit
      made := 0
      lastFailure := none
      attempts := [] }

/-- The unit whose IMAGE_END a transaction makes. -/
def endingUnit (t : Transaction) : Option UnitIx :=
  if t.kind = .imageEnd then
    match t.contender with
    | .single u _ => some u
    | .group target => target
  else none

/-- A transaction starts: the line latches its configuration, and a unit whose IMAGE_END it is enters VERIFYING; a unit
loading alone has then left its load step (R124, R148, R154, R161). -/
def Runtime.openTxn (k : LineIx) (t : Transaction) (r : Runtime) : Runtime :=
  let r1 := r.updLine k fun l => { l with latched := r.settings.lines[k], txn := some t }
  match endingUnit t with
  | none => r1
  | some u =>
    r1.updUnit u fun x =>
      { x with run := .verifying, loadStep := if x.loadStep = .ending then .idle else x.loadStep }

/-! ### What an ending does to a unit's run -/

/-- The end of a HELLO_ASK attempt (R60). -/
def Runtime.helloEnd (u : UnitIx) (e : TxnEnd) (r : Runtime) : Runtime :=
  match e with
  | .reply (.hello h) => r.takeHello u h
  | .failed _ =>
    if r.units[u].bootHeld then r.failRun u .bootTimeout
    else r.updUnit u fun x => { x with attendTimer := some 0 }
  | .reply _ | .protocol | .sent =>
    if r.units[u].bootHeld then r.failRun u .bootTimeout else r.failRun u .protocol

/-- A STATUS is compared with a known stored boot count and differs (R34, R41). -/
def UnitRecord.bootDiffers (boot : Half) (x : UnitRecord) : Bool :=
  match x.bootCount with
  | some b => decide (b ≠ boot)
  | none => false

/-- A poll has missed (R69). -/
def Runtime.pollMiss (u : UnitIx) (r : Runtime) : Runtime :=
  let r1 := r.updUnit u fun x => { x with pollMisses := x.pollMisses + 1 }
  if r1.settings.missLimit ≤ r1.units[u].pollMisses then r1.lose u else r1

/-- The sequence recorded with the answered attempt equals the present one (R33, R41). -/
def UnitRecord.sameSeq (att : Option Attempt) (x : UnitRecord) : Bool :=
  match att with
  | some a =>
    match a.recorded with
    | some (q, _) => decide (q = x.contextSeq)
    | none => false
  | none => false

/-- The end of a poll (R41, R69). -/
def Runtime.pollEnd (u : UnitIx) (att : Option Attempt) (e : TxnEnd) (r : Runtime) : Runtime :=
  match e with
  | .reply (.status boot c) =>
    if (r.units[u]).bootDiffers boot then r.lose u
    else
      r.updUnit u fun x =>
        if !x.editPending && x.sameSeq att then x.capture boot c else { x with pollMisses := 0 }
  | .reply _ | .failed _ | .protocol | .sent => r.pollMiss u

/-- A CHECKING unit that did not confirm its ride-through: a prediction miss, and it is attended in the same run
(R36, R63). -/
def Runtime.checkMiss (u : UnitIx) (r : Runtime) : Runtime :=
  (r.updUnit u fun x =>
    (if x.runClass = .rode then x.miss else x).derive x.attendClass).contact u .attending

/-- The end of the STATUS_ASK of CHECKING (R42, R63). A RELOAD in flight stays in flight where the ride-through is
confirmed (log 33). -/
def Runtime.checkEnd (u : UnitIx) (e : TxnEnd) (r : Runtime) : Runtime :=
  match e with
  | .reply (.status boot c) =>
    if r.units[u].bootCount = some boot then
      if r.units[u].editPending then r.enterRestoring u false
      else r.updUnit u fun x => (x.capture boot c).serve .running
    else r.checkMiss u
  | .failed _ => r.checkMiss u
  | .reply _ | .protocol | .sent => r.failRun u .protocol

/-- The end of a probe's STATUS_ASK in RESTORING: the context is adopted, the boot count is stored, also where edit-pending
keeps the context from being adopted (log 31), and the put is posted (R43, R65, R67). -/
def Runtime.askEnd (u : UnitIx) (e : TxnEnd) (r : Runtime) : Runtime :=
  match e with
  | .reply (.status boot c) =>
    (r.updUnit u fun x => { x.adopt (some c) with bootCount := some boot }).post u (.put .restore)
  | .failed f => r.failRun u (causeOf f)
  | .reply _ | .protocol | .sent => r.failRun u .protocol

/-- The end of a STATUS_ASK that is no poll. -/
def Runtime.statusEnd (u : UnitIx) (e : TxnEnd) (r : Runtime) : Runtime :=
  if r.units[u].run = .checking then r.checkEnd u e else r.askEnd u e

/-- Edit-pending is cleared where the answered put carried the present sequence (R33). -/
def UnitRecord.clearEdit (att : Option Attempt) (x : UnitRecord) : UnitRecord :=
  if x.sameSeq att then { x with editPending := false } else x

/-- The state a unit leaves RESTORING into, by the context of the put that the ACK answers (R66). -/
def restoredState (att : Option Attempt) (x : UnitRecord) : RunState :=
  if x.config.kind = .door then
    match att.bind Attempt.recorded with
    | some (_, c) => if doorReleasable c then .running else .held
    | none => .held
  else .running

/-- RESTORING ends with the ACK of its put (R66). -/
def Runtime.restored (u : UnitIx) (att : Option Attempt) (r : Runtime) : Runtime :=
  let r1 := r.updUnit u fun x =>
    { (x.clearEdit att).serve (restoredState att x) with probePending := false }
  let r2 := if (r1.units[u]).enlistOrReload then r1.closeInFlight u .done else r1
  r2.postPendingEdit u

/-- The request a put of RUNNING or HELD serves is in flight (R70). -/
def putServes (p : PutPurpose) (x : UnitRecord) : Bool :=
  match x.inFlight with
  | some q => decide ((p = .edit ∧ q.request = .contextEdit) ∨ (p = .release ∧ q.request = .releaseDoor))
  | none => false

/-- A put of RUNNING or HELD is acknowledged (R46, R70, R76). -/
def Runtime.putAcked (u : UnitIx) (p : PutPurpose) (att : Option Attempt) (r : Runtime) : Runtime :=
  let served := putServes p r.units[u]
  let r1 := r.updUnit u fun x =>
    let y := x.clearEdit att
    if p = .release then y.serve .running else y
  let r2 := if served then r1.closeInFlight u .done else r1
  if p = .release then r2.postPendingEdit u else r2

/-- The end of a CONTEXT_PUT (R66, R67, R70, R76). -/
def Runtime.putEnd (u : UnitIx) (p : PutPurpose) (att : Option Attempt) (e : TxnEnd) (r : Runtime) : Runtime :=
  if r.units[u].run = .restoring then
    match e with
    | .reply .ack => r.restored u att
    | .failed f => r.failRun u (causeOf f)
    | .reply _ | .protocol | .sent => r.failRun u .protocol
  else
    match e with
    | .reply .ack => r.putAcked u p att
    | .reply _ | .failed _ | .protocol | .sent => r.lose u

/-! ### A load alone (R152 to R154) -/

/-- The unit loading alone posts its next block where a buffer holds it, else waits for its fetch (R152, R153). -/
def Runtime.nextBlock (k : LineIx) (u : UnitIx) (r : Runtime) : Runtime :=
  if (r.lines[k].heldBlock r.units[u].confirmed).isSome then r.post u .block
  else r.updLine k fun l => { l with waitBlock := some r.units[u].confirmed }

/-- An IMAGE_BEGIN to the unit is acknowledged: the load is counted, and the result item is queued with the progress
(R37, R168). -/
def Runtime.beginAcked (u : UnitIx) (r : Runtime) : Runtime :=
  (r.updUnit u UnitRecord.beginAcked).enqueue (.unitResult u)

/-- The end of the IMAGE_BEGIN of a load alone (R152). -/
def Runtime.beginEnd (k : LineIx) (u : UnitIx) (e : TxnEnd) (r : Runtime) : Runtime :=
  match e with
  | .reply .ack => (r.beginAcked u).nextBlock k u
  | .failed f => r.failRun u (causeOf f)
  | .reply _ | .protocol | .sent => r.failRun u .protocol

/-- The end of an IMAGE_BLOCK of a load alone (R153, R154). After the last block the begin works that the freed slot lets
post join before the unit's IMAGE_END (log 36). -/
def Runtime.blockEnd (k : LineIx) (u : UnitIx) (e : TxnEnd) (r : Runtime) : Runtime :=
  match e with
  | .reply (.blockOk b) =>
    let r1 := (r.updUnit u UnitRecord.confirm).updLine k (LineRecord.dropBlock b)
    if r1.units[u].image.blockCount ≤ r1.units[u].confirmed then
      ((r1.updUnit u fun x => { x with loadStep := .ending }).freeSlot k).post u .imageEnd
    else r1.nextBlock k u
  | .failed f => r.failRun u (causeOf f)
  | .reply _ | .protocol | .sent => r.failRun u .protocol

/-- The end of an IMAGE_END, in VERIFYING (R64). -/
def Runtime.verdictEnd (u : UnitIx) (e : TxnEnd) (r : Runtime) : Runtime :=
  match e with
  | .reply (.verdict true) =>
    let ask := r.units[u].probePending && !r.units[u].contextPresent
    (r.updUnit u fun x => { x with imageValid := true, forceCold := false, bootCount := none }).enterRestoring u ask
  | .reply (.verdict false) =>
    let r1 := r.updUnit u fun x => { x with verdicts := x.verdicts + 1 }
    if r1.units[u].verdicts < 2 then r1.enterLoading u else r1.failRun u .imageBad
  | .failed f => r.failRun u (causeOf f)
  | .reply _ | .protocol | .sent => r.failRun u .protocol

/-- What an ending of a unit's own work does to its run (R60 to R70, R142, R152 to R154). -/
def Runtime.runEnd (k : LineIx) (u : UnitIx) (w : Work) (att : Option Attempt) (e : TxnEnd) (r : Runtime) : Runtime :=
  match w with
  | .hello => r.helloEnd u e
  | .poll => r.pollEnd u att e
  | .status => r.statusEnd u e
  | .put p => r.putEnd u p att e
  | .beginLoad => r
  | .imageBegin => r.beginEnd k u e
  | .block => r.blockEnd k u e
  | .imageEnd => r.verdictEnd u e

/-- Work held with the unit joins the list once the run has acted, unless the run has posted other work or has left
RUNNING and HELD (R135). -/
def Runtime.postHeld (u : UnitIx) (held : Option Work) (r : Runtime) : Runtime :=
  match held with
  | none => r
  | some w =>
    if (r.units[u].run = .running ∨ r.units[u].run = .held) ∧ r.busy u = false then r.post u w else r

/-- A transaction of a unit's own work has ended: the run acts on the outcome, the poll timer starts again where the unit
stays in RUNNING or HELD, and held work joins the list (R50, R53, R135). -/
def Runtime.unitEnd (k : LineIx) (u : UnitIx) (w : Work) (att : Option Attempt) (e : TxnEnd) (r : Runtime) : Runtime :=
  let r1 := (r.updUnit u fun x => { x with heldWork := none }).runEnd k u w att e
  (r1.updUnit u UnitRecord.restartPoll).postHeld u r.units[u].heldWork

/-! ### A group (R155 to R163) -/

/-- The group record is replaced. -/
def Runtime.setGroup (k : LineIx) (g : Group) (r : Runtime) : Runtime :=
  r.updLine k fun l => { l with slot := .group g }

/-- A member is changed in the group record. -/
def Runtime.updMember (k : LineIx) (u : UnitIx) (f : Member → Member) (r : Runtime) : Runtime :=
  match r.lines[k].groupRecord with
  | some g => r.setGroup k (g.updMember u f)
  | none => r

/-- A block joins a member's missed list; a list that already holds 16 cannot take it, and the member leaves to load
alone (R158). -/
def Runtime.missBlock (k : LineIx) (u : UnitIx) (g : Group) (silence : Nat) (r : Runtime) : Runtime :=
  if missedLimit ≤ (g.missedOf u).length then r.leaveToLoadAlone k u
  else r.updMember k u fun m => { m with missed := m.missed ++ [g.block], silence := silence }

/-- The silence count of a member. -/
def Group.silenceOf (u : UnitIx) (g : Group) : Nat :=
  match g.members.find? fun m => decide (m.unit = u) with
  | some m => m.silence
  | none => 0

/-- The outcome of a BLOCK_ASK of a tally for its member (R158). -/
def Runtime.tally (k : LineIx) (u : UnitIx) (g : Group) (e : TxnEnd) (r : Runtime) : Runtime :=
  match e with
  | .reply (.blockOk _) => (r.updMember k u fun m => { m with silence := 0 }).updUnit u UnitRecord.confirm
  | .reply (.blockBad _) => r.missBlock k u g 0
  | .failed .noReply =>
    if silenceLimit ≤ g.silenceOf u + 1 then r.failRun u .noReply else r.missBlock k u g (g.silenceOf u + 1)
  | .failed .damaged | .failed .lineFault | .failed .blockBad => r.missBlock k u g (g.silenceOf u)
  | .reply _ | .protocol | .sent => r.failRun u .protocol

/-- The outcome of an exchange with a member, by the group's phase (R156, R158, R160, R161). After the END round of the
last member its put stands before the begin works of the units at SLOT_WAIT, as in section 10.2; at a first VERDICT BAD it is
one of them (log 27). -/
def Runtime.memberEnd (k : LineIx) (u : UnitIx) (g : Group) (e : TxnEnd) (r : Runtime) : Runtime :=
  match g.phase with
  | .begin =>
    match e with
    | .reply .ack => r.beginAcked u
    | .failed _ => r.leaveToLoadAlone k u
    | .reply _ | .protocol | .sent => r.failRun u .protocol
  | .blocks => r.tally k u g e
  | .repair =>
    match e with
    | .reply (.blockOk b) =>
      (r.updMember k u fun m => { m with missed := m.missed.filter fun x => decide (x ≠ b) }).updUnit u UnitRecord.confirm
    | .failed f => r.failRun u (causeOf f)
    | .reply _ | .protocol | .sent => r.failRun u .protocol
  | .ending => r.leaveGroup k u (Runtime.verdictEnd u e)

/-- The end of a step of a group's round. A group frame that was not sent asks for the next block at that ending
(R157). -/
def Runtime.groupEnd (k : LineIx) (t : Transaction) (e : TxnEnd) (r : Runtime) : Runtime :=
  match r.lines[k].groupRecord, t.contender with
  | some g, .group (some u) => r.memberEnd k u g e
  | some _, .group none => r.askNext k t
  | _, _ => r

/-- The group entry rejoins the list when the block is held: at once, or when its fetch completes (R156, R157, R160). -/
def Runtime.awaitBlock (k : LineIx) (b : Nat) (r : Runtime) : Runtime :=
  if (r.lines[k].heldBlock b).isSome then r.updLine k LineRecord.listGroup
  else r.updLine k fun l => { l with waitBlock := some b }

/-- What follows a tally of the last block or a repair round: the next block to repair is asked for, or the phase becomes
END (R157, R160, R164). -/
def Runtime.repairOrEnd (k : LineIx) (g : Group) (r : Runtime) : Runtime :=
  match g.nextRepair with
  | some (_, b) => ((r.setGroup k { g with phase := .repair }).askBlock k b false).awaitBlock k b
  | none => (r.setGroup k { g with phase := .ending }).updLine k LineRecord.listGroup

/-- A round of the group ends with members left (R156, R157, R160, R161). -/
def Runtime.endRound (k : LineIx) (r : Runtime) : Runtime :=
  match r.lines[k].groupRecord with
  | none => r
  | some g0 =>
    let g := { g0 with inRound := false, todo := [] }
    match g.phase with
    | .begin => (r.setGroup k { g with phase := .blocks, block := 0 }).awaitBlock k 0
    | .blocks =>
      let r1 := r.updLine k (LineRecord.dropBlock g.block)
      if g.block + 1 < g.image.blockCount then
        (r1.setGroup k { g with block := g.block + 1 }).awaitBlock k (g.block + 1)
      else r1.repairOrEnd k g
    | .repair => (r.updLine k fun l => { l with buffer0 := none, buffer1 := none }).repairOrEnd k g
    | .ending => (r.setGroup k g).updLine k LineRecord.listGroup

/-- The steps of a round still to be made: each starts as a transaction, which on a faulted line fails at once, so that
the next follows (R111, R129, R157); after the last the round ends. -/
def Runtime.runRound (k : LineIx) : List (Option UnitIx) → Runtime → Runtime
  | [], r => r.endRound k
  | step :: rest, r =>
    match r.lines[k].groupRecord with
    | none => r
    | some g =>
      let t := r.groupTxn g step
      let r1 := (r.setGroup k { g with todo := rest }).openTxn k t
      if r.lines[k].state = .faulted then
        Runtime.runRound k rest
          ((r1.updLine k fun l => { l with txn := none }).groupEnd k t (.failed .lineFault))
      else r1.handAttempt k

/-- The round goes on with its next step where one is under way and the line is in IDLE with no transaction (R162). -/
def Runtime.resumeRound (k : LineIx) (r : Runtime) : Runtime :=
  match r.lines[k].groupRecord with
  | some g => if g.inRound ∧ r.lines[k].txn = none ∧ r.lines[k].state = .idle then r.runRound k g.todo else r
  | none => r

/-- Rounds whose transaction was abandoned go on on every line that has reached IDLE (R162). -/
def Runtime.resumeRounds (r : Runtime) : Runtime := r.eachLine Runtime.resumeRound

/-! ### Endings, retries and exhaustion (R127, R129) -/

/-- The outstanding transaction ends: the record is empty, and the outcome goes to its owner (R127, R137). -/
def Runtime.endTxn (k : LineIx) (e : TxnEnd) (r : Runtime) : Runtime :=
  match r.lines[k].txn with
  | none => r
  | some t =>
    let r1 := r.updLine k fun l => { l with txn := none }
    match t.contender with
    | .single u w => r1.unitEnd k u w t.attempts.getLast? e
    | .group _ =>
      let r2 := if e = .sent then r1 else r1.groupEnd k t e
      match r2.lines[k].groupRecord with
      | some g => if g.inRound then r2.runRound k g.todo else r2
      | none => r2

/-- The outstanding attempt has failed (R129): another is handed at once below the limit, where the line is in IDLE; in
FAULTED every further attempt fails at once with LINE_FAULT. -/
def Runtime.failAttempt (k : LineIx) (f : Failure) (r : Runtime) : Runtime :=
  match r.lines[k].txn with
  | none => r
  | some t =>
    if r.lines[k].state = .faulted then r.endTxn k (.failed .lineFault)
    else if t.made < t.limit then
      (r.updLine k fun l => { l with txn := some { t with lastFailure := some f } }).handAttempt k
    else r.endTxn k (.failed f)

/-- A transaction of a unit's own work starts; on a faulted line it is exhausted at once (R111, R124). -/
def Runtime.startSingle (k : LineIx) (u : UnitIx) (w : Work) (r : Runtime) : Runtime :=
  let r1 := r.openTxn k (r.singleTxn u w)
  if r.lines[k].state = .faulted then r1.endTxn k (.failed .lineFault) else r1.handAttempt k

/-! ### The arbiter (R136, R150, R155) -/

/-- The priority of an entry (R136). -/
def Runtime.entryPriority (k : LineIx) (r : Runtime) : Entry → Nat
  | .single u _ => r.units[u].config.priority
  | .group =>
    match r.lines[k].groupRecord with
    | some g => (g.members.map fun m => r.units[m.unit].config.priority).foldl max 0
    | none => 0

/-- The entry chosen from a list: the highest priority, and among equals the one that joined earliest (R136). -/
def Runtime.choose (k : LineIx) (r : Runtime) : List Entry → Option Entry
  | [] => none
  | e :: rest =>
    match r.choose k rest with
    | none => some e
    | some e' => if r.entryPriority k e < r.entryPriority k e' then some e' else some e

/-- The other unit entries of a wait list that R155 may take into a group with the chosen unit. -/
def Runtime.groupCandidates (k : LineIx) (u : UnitIx) (r : Runtime) : List UnitIx :=
  r.lines[k].waitList.filterMap fun e =>
    match e with
    | .single v .beginLoad =>
      if v ≠ u ∧ r.units[v].aloneMark = false ∧ r.units[v].config.groupTag = r.units[u].config.groupTag
          ∧ r.units[v].config.image = r.units[u].config.image then some v
      else none
    | _ => none

/-- Each candidate is latched; one whose latch fails ends its run (R155). The units that pass are returned. -/
def Runtime.latchAll : List UnitIx → Runtime → Runtime × List UnitIx
  | [], r => (r, [])
  | v :: rest, r =>
    let latched := r.latch v
    if latched.2 then
      let d := Runtime.latchAll rest latched.1
      (d.1, v :: d.2)
    else Runtime.latchAll rest (latched.1.failRun v .imageChanged)

/-- The remaining begin entries of a wait list leave it, and their units return to SLOT_WAIT (R150). -/
def Runtime.clearBegins (k : LineIx) (r : Runtime) : Runtime :=
  r.lines[k].waitList.foldl
    (fun r e =>
      match e with
      | .single v .beginLoad =>
        (r.updLine k (LineRecord.unlist v)).updUnit v fun x => { x with loadStep := .slotWait }
      | _ => r) r

/-- The members of a new group, in ascending entry index (R155). -/
def newMembers (us : List UnitIx) : List Member :=
  ((List.finRange Config.units).filter fun u => decide (u ∈ us)).map fun u => { unit := u, missed := [], silence := 0 }

/-- The slot is taken: the running CRC-32 restarts, and block 0 is asked for (R150). -/
def Runtime.takeSlot (k : LineIx) (slot : Slot) (r : Runtime) : Runtime :=
  Runtime.askBlock k 0 true
    ((r.updLine k fun l => { l.clearSlot with slot := slot, crc := some crc32Start }).clearBegins k)

/-- A unit that is taken leaves the wait list with its new load step (R150, R155). -/
def Runtime.takeUnit (k : LineIx) (step : LoadStep) (u : UnitIx) (r : Runtime) : Runtime :=
  (r.updLine k (LineRecord.unlist u)).updUnit u fun x => { x with loadStep := step }

/-- The chosen begin work: the latch, then the slot taken alone or by a group, and the first work of the load (R150,
R155). -/
def Runtime.chooseBegin (k : LineIx) (u : UnitIx) (r : Runtime) : Runtime :=
  let latched := r.latch u
  if latched.2 then
    let r1 := latched.1
    let wants := if r1.units[u].config.groupTag ≠ 0 ∧ r1.units[u].aloneMark = false then r1.groupCandidates k u else []
    let d := r1.latchAll wants
    if d.2.isEmpty then
      ((d.1.takeUnit k .alone u).takeSlot k (.alone u)).startSingle k u .imageBegin
    else
      let members := newMembers (u :: d.2)
      let g : Group :=
        { members := members
          tag := d.1.units[u].config.groupTag
          image := d.1.units[u].image
          phase := .begin
          block := 0
          inRound := true
          todo := members.map fun m => some m.unit }
      Runtime.runRound k g.todo
        (((u :: d.2).foldl (fun r v => r.takeUnit k .member v) d.1).takeSlot k (.group g))
  else latched.1.failRun u .imageChanged

/-- The steps of the round that the group entry carries (R157, R160, R161). -/
def roundSteps (g : Group) : List (Option UnitIx) :=
  match g.phase with
  | .begin => g.members.map fun m => some m.unit
  | .blocks => none :: g.members.map fun m => some m.unit
  | .repair => (g.nextRepair.map fun p => some p.1).toList
  | .ending => (g.members.head?.map fun m => some m.unit).toList

/-- The chosen group entry: its round starts. A repair round whose block is no longer the next to repair, since a member
has left, asks for the next one, or goes on to END (R160, log 13). -/
def Runtime.chooseGroup (k : LineIx) (r : Runtime) : Runtime :=
  match r.lines[k].groupRecord with
  | none => r
  | some g =>
    let start (g : Group) (r : Runtime) : Runtime :=
      (r.setGroup k { g with inRound := true, todo := roundSteps g }).runRound k (roundSteps g)
    if g.phase = .repair then
      match g.nextRepair with
      | none => start { g with phase := .ending } r
      | some (_, b) =>
        if (r.lines[k].heldBlock b).isSome then start g r
        else (r.updLine k fun l => { l with buffer0 := none, buffer1 := none }).repairOrEnd k g
    else start g r

/-- The chosen entry leaves the wait list, and its work starts (R136). -/
def Runtime.startEntry (k : LineIx) (r : Runtime) : Entry → Runtime
  | .single u w =>
    let r1 := r.updLine k (LineRecord.unlist u)
    if w = .beginLoad then r1.chooseBegin k u else r1.startSingle k u w
  | .group =>
    Runtime.chooseGroup k
      (r.updLine k fun l => { l with waitList := l.waitList.filter fun e => decide (e ≠ .group) })

end Machine

end Sys2Proof
end

