-- ==== Sys2Proof/Machine/PartOps.lean ====
section
/-! DEFINITION. What passes between the blocks: gap declarations, supply up, the feed notices, an area fault, and the
changes of the controller mode (chapters 1, 3, 4, 9). -/

namespace Sys2Proof

namespace Machine

/-- The runtime is changed. -/
def State.onRt (f : Runtime → Runtime) (s : State) : State := { s with rt := f s.rt }

/-- The supply state is UP. -/
def State.supplyUp (s : State) : Bool := decide (s.monitor.supply = .up)

/-- Admission is considered (R83). -/
def State.considerAdmission (s : State) : State := s.setFeeds (s.feeds.consider s.supplyUp)

/-- A feed has left SOFTSTART: a pending budget may take force, and admission is considered (R84, R86). -/
def State.afterSoftStart (s : State) : State := s.setFeeds (s.feeds.afterLeave s.supplyUp)

/-! ### A gap declaration (R10, R16, R55, R91, R120) -/

/-- The fetch list is emptied and no fetch being served is wanted any more (R151). -/
def Runtime.dropFetches (r : Runtime) : Runtime :=
  { r with
    fetchList := []
    read := r.read.map fun b =>
      match b.user with
      | .fetch q _ => { b with user := .fetch q false }
      | _ => b }

/-- Every line stops (R120, R133). -/
def Runtime.stopLines (r : Runtime) : Runtime :=
  (r.eachLine fun k r => r.updLine k LineRecord.stopForGap).dropFetches

/-- A load is cut: image-valid is cleared (R32). -/
def UnitRecord.loadCut (x : UnitRecord) : UnitRecord :=
  if x.run = .loading ∨ x.run = .verifying then { x with imageValid := false } else x

/-- A unit enters RIDING: its timers stop, and a load is cut with force-cold set (R30, R55). -/
def UnitRecord.toRiding (x : UnitRecord) : UnitRecord :=
  { x.loadCut.stopTimers with
    forceCold := x.forceCold || decide (x.run = .loading ∨ x.run = .verifying)
    heldWork := none
    loadStep := .idle
    cause := if x.run = .failed then .blank else x.cause
    run := .riding }

/-- A managed unit takes a gap declaration (R55). -/
def Runtime.ride (u : UnitIx) (r : Runtime) : Runtime :=
  if r.units[u].run = .unmanaged ∨ r.units[u].run = .riding then r
  else
    let r1 := r.updUnit u UnitRecord.toRiding
    if (r.units[u]).editOrRelease then r1.closeInFlight u .cut else r1

/-- A gap declaration is handed to the lines, the Unit Sequencer and the Feed Controller (R10). -/
def State.handGap (s : State) : State :=
  let s1 := s.onRt fun r => r.stopLines.eachUnit Runtime.ride
  s1.setFeeds s1.feeds.declareGap

/-- A gap is declared (R10). -/
def State.declareGap (s : State) : State :=
  ({ s with monitor := s.monitor.declare s.uptimeNow }.raise .gapDeclared).handGap

/-- The shed command (R12, R92). -/
def State.shed (s : State) : State :=
  { s with monitor := { s.monitor with shed := true } }.setFeeds s.feeds.shedAll

/-! ### Supply up (R15, R16, R57) -/

/-- A unit in RIDING takes supply up, with its class if it was classified (R57). -/
def Runtime.supplyUp (feedOn : FeedIx → Bool) (cls : Option GapClass) (u : UnitIx) (r : Runtime) : Runtime :=
  if r.units[u].run = .riding then
    let r1 := r.updUnit u fun x =>
      match cls with
      | some c => { x with runClass := c, origin := .classified, lastClass := some c }
      | none => x
    if feedOn r.units[u].config.feed then r1.proceed u else r1.updUnit u fun x => { x with run := .waitFeed }
  else r

/-- The class handed over for each unit, in entry order (R23). -/
def State.handedClasses (c : Capture) (s : State) : List (Option GapClass) :=
  (List.finRange Config.units).map fun u => handedClass s.rt.settings c s.rt.units[u]

/-- Supply up is handed to the Unit Sequencer, the lines and the Feed Controller (R16). -/
def State.handSupplyUp (c : Capture) (s before : State) : State :=
  let s1 := s.onRt fun r =>
    (r.eachUnit fun u r =>
      r.supplyUp before.feedOn (handedClass before.rt.settings c before.rt.units[u]) u).eachLine
      fun k r => r.updLine k LineRecord.supplyUp
  s1.setFeeds s1.feeds.supplyUp

/-- Settling ends (R15). -/
def State.endSettling (s : State) : State :=
  match s.monitor.capture with
  | none => s
  | some c =>
    let s1 := { s with monitor := s.monitor.endSettling (s.monitor.record c (s.handedClasses c)) }
    ((s1.onRt (Runtime.enqueue .gapList)).raise .supplyUp).handSupplyUp c s

/-! ### Feed notices (R58, R59, R94) -/

/-- The class of a unit whose feed is lost becomes COLD, unless its probe is pending (R59). -/
def UnitRecord.feedCold (x : UnitRecord) : UnitRecord := if x.probePending then x else x.derive .cold

/-- A managed unit takes the left ON notice of its feed (R59). -/
def Runtime.loseFeed (u : UnitIx) (r : Runtime) : Runtime :=
  let r1 := r.updUnit u fun x => { x with forceCold := true }
  match r.units[u].run with
  | .unmanaged => r
  | .riding | .failed => r1
  | .waitFeed => r1.updUnit u UnitRecord.feedCold
  | .probing | .running | .held | .checking | .attending | .loading | .verifying | .restoring =>
    let r2 := (r1.withdraw u).updUnit u fun x => { x.loadCut.stopTimers.feedCold with run := .waitFeed }
    if (r.units[u]).editOrRelease then r2.closeInFlight u .cut else r2

/-- The left ON notice of a feed (R59, R94); rounds whose transaction it abandoned go on (R162). -/
def Runtime.leftOn (f : FeedIx) (r : Runtime) : Runtime :=
  (r.eachUnit fun u r => if r.units[u].config.feed = f then r.loseFeed u else r).resumeRounds

/-- The reached ON notice of a feed (R58, R94). -/
def Runtime.reachedOn (f : FeedIx) (r : Runtime) : Runtime :=
  r.eachUnit fun u r => if r.units[u].run = .waitFeed ∧ r.units[u].config.feed = f then r.proceed u else r

/-- A feed trips (R88). -/
def State.trip (f : FeedIx) (s : State) : State :=
  let s1 := ((s.setFeeds (s.feeds.trip s.uptimeNow f)).raise .feedEvent).onRt (Runtime.leftOn f)
  if s.feeds.feed[f].state = .softstart then s1.afterSoftStart else s1

/-- A feed reaches ON (R85). -/
def State.feedReachesOn (f : FeedIx) (s : State) : State :=
  ((s.setFeeds (s.feeds.reachOn f)).onRt (Runtime.reachedOn f)).afterSoftStart

/-- A feed's cooldown ends (R89). -/
def State.cooldownEnds (f : FeedIx) (s : State) : State :=
  let s1 := s.setFeeds (s.feeds.endCooldown s.supplyUp f)
  if (s.feeds.feed[f]).returns then s1 else s1.raise .feedEvent

/-! ### The sweep engine (R180) -/

/-- The engine, IDLE in RUNNING, starts its next job: the header load first if it is wanted (R180). -/
def State.engineNext (s : State) : State :=
  if s.rt.mode = .running ∧ s.port.job = none then
    if s.port.headerWanted then { s with port := { s.port with job := some .header, headerWanted := false } }
    else if s.port.sweepWanted then { s with port := { s.port with job := some (.sweep 0), sweepWanted := false } }
    else s
  else s

/-- The engine is sweeping. -/
def Port.sweeping (p : Port) : Bool :=
  match p.job with
  | some (.sweep _) => true
  | _ => false

/-- The sweep-wanted flag is set (R180). -/
def State.wantSweep (s : State) : State := { s with port := { s.port with sweepWanted := true } }.engineNext

/-- The engine's job ends and its flags are cleared (R186, R203). -/
def Port.haltEngine (p : Port) : Port :=
  { p with job := none, sweepWanted := false, headerWanted := false, sweepTimerOn := false }

/-! ### Area faults (R77, R163, R174, R203) -/

/-- The outstanding read burst's user has ended (R174). -/
def Runtime.orphanRead (r : Runtime) : Runtime := { r with read := r.read.map fun b => { b with live := false } }

/-- An IMAGE_END outstanding for a group's member continues as that member's own transaction, and the member is out of
the group (R163). -/
def Runtime.keepVerdict (k : LineIx) (r : Runtime) : Runtime :=
  match r.lines[k].txn, r.lines[k].groupRecord with
  | some t, some g =>
    match t.contender, t.kind with
    | .group (some u), .imageEnd =>
      (r.updUnit u fun x => { x with loadStep := .idle }).updLine k fun l =>
        { l with txn := some { t with contender := .single u .imageEnd }, slot := .group (g.without u) }
    | _, _ => r
  | _, _ => r

/-- Every unit in LOADING fails with AREA, every group is dissolved, every slot is FREE and the fetch list is empty
(R77, R163, R165, R203). -/
def Runtime.failLoads (r : Runtime) : Runtime :=
  let r1 := r.eachLine Runtime.keepVerdict
  let r2 := r1.eachUnit fun u r =>
    if r.units[u].run = .loading then (r.updUnit u fun x => { x with imageValid := false }).failRun u .area else r
  { (r2.eachLine Runtime.dissolve).orphanRead with fetchList := [] }

/-- The mode becomes AREA_FAULT (R203). -/
def State.enterAreaFault (s : State) : State :=
  let s1 := { s with rt := { s.rt with mode := .areaFault }, port := { s.port.haltEngine with starting := false } }
  (s1.raise .areaFault).onRt Runtime.failLoads

/-- An area fault is handed to the controller mode (R203). -/
def State.areaFault (s : State) : State :=
  if s.rt.mode = .running ∨ s.port.starting then s.enterAreaFault
  else if s.rt.mode = .areaFault then s.raise .areaFault
  else s

/-- The outstanding read burst fails (R174): without effect where its user has ended; a recovery whose header load fails
ends (R204). -/
def State.failRead (s : State) : State :=
  match s.rt.read with
  | none => s
  | some b =>
    let s1 := s.onRt fun r => { r with read := none }
    if b.live then
      if b.user = .header ∧ s.port.recovering then
        { s1 with port := { s1.port with job := none, recovering := false } }.areaFault
      else s1.areaFault
    else s1

/-- The outstanding write fails (R174, R192): its item returns to the head of the queue. -/
def State.failWrite (s : State) : State :=
  match s.port.write with
  | none => s
  | some w =>
    let s1 := { s with port := { s.port with write := none } }
    if w.live then (s1.onRt fun r => { r with queue := w.item :: r.queue.erase w.item }).areaFault else s1

/-! ### Entering RUNNING (R202, R204) -/

/-- The items that a start queues: the gap list, the header status and the status of every feed (R202). -/
def Runtime.enqueueStartItems (r : Runtime) : Runtime :=
  (List.finRange Config.feeds).foldl (fun r f => r.enqueue (.feedStatus f))
    ((r.enqueue .gapList).enqueue .headerStatus)

/-- The mode becomes RUNNING: the sweep timer starts, and the start items are queued where the flag is set (R202,
R204). -/
def State.enterRunning (s : State) : State :=
  let s1 :=
    { s with
      rt := if s.port.startItems then Runtime.enqueueStartItems { s.rt with mode := .running } else { s.rt with mode := .running }
      port :=
        { s.port with
          starting := false, recovering := false, startItems := false, job := none, sweepTimer := 0, sweepTimerOn := true } }
  s1.engineNext

/-! ### Stopping and restarting (R25, R78, R101, R122, R205, R206) -/

/-- A unit record leaves management: its marks are cleared (R48). -/
def UnitRecord.leave (x : UnitRecord) : UnitRecord :=
  { x.stopTimers with
    run := .unmanaged
    forceCold := false
    probePending := false
    imageValid := false
    editPending := false
    inFlight := none
    heldWork := none
    loadStep := .idle }

/-- The controller stops: no unit is managed, every line's work ends, and the queue is discarded (R78, R122, R171, R192,
R205). -/
def Runtime.stop (r : Runtime) : Runtime :=
  let r1 := { r with mode := .stopped, queue := [] }
  ((r1.eachUnit fun u r => if (r.units[u]).managed then r.updUnit u UnitRecord.leave else r).eachLine
    fun k r => r.updLine k LineRecord.stopForHost).dropFetches.orphanRead

/-- The controller stops (R205). -/
def State.stop (s : State) : State :=
  { s with
    rt := s.rt.stop
    port :=
      { s.port.haltEngine with
        starting := false
        recovering := false
        startItems := false
        engineHadLast := false
        write := s.port.write.map fun w => { w with live := false } } }

/-- The lines after a restart: as at reset, or stopped where the supply state kept is GAP or SETTLING (R25, R122). -/
def Monitor.restartedLine (m : Monitor) : LineRecord :=
  if m.supply = .gap ∨ m.supply = .settling then LineRecord.reset.stopForGap else LineRecord.reset

/-- A controller restart (R206); the character or break on a line's wire is completed (R122). -/
def State.restart (keep : Bool) (s : State) : State :=
  { s with
    feeds := s.feeds.restarted keep
    rt := { Runtime.reset with lines := s.rt.lines.map fun l => { s.monitor.restartedLine with tail := l.cutTail } }
    port :=
      { Port.reset with
        areaLow := s.port.areaLow, areaHigh := s.port.areaHigh, base := s.port.base, readData := s.port.readData } }

/-! ### CONTROL (R201) -/

/-- The area base that the two registers hold (R173). -/
def Port.registersBase (p : Port) : Dword := p.areaHigh ++ p.areaLow

/-- The three stored fields are set (R201). -/
def State.storeControl (v : Word) (s : State) : State :=
  { s with
    port := { s.port with ackExplicit := controlAckMode v, changeIe := controlChangeIe v, stateIe := controlStateIe v } }

/-- A write of 1 to RUN (R202, R204). -/
def State.run (s : State) : State :=
  if s.rt.mode = .stopped ∧ s.port.starting = false then
    { s with
      port := { s.port with base := s.port.registersBase, startItems := true, starting := true, job := some .header } }
  else if s.rt.mode = .areaFault ∧ s.port.recovering = false then
    { s with port := { s.port with base := s.port.registersBase, recovering := true, job := some .header } }
  else s

/-- A write of 0 to RUN (R205). -/
def State.halt (s : State) : State := if s.rt.mode ≠ .stopped ∨ s.port.starting then s.stop else s

/-- A write of 1 to LOAD_HEADER (R187). -/
def State.wantHeader (s : State) : State :=
  if s.rt.mode = .running then { s with port := { s.port with headerWanted := true } }.engineNext else s

/-- A write to CONTROL: a restart alone, or else the stored fields, then RUN, then LOAD_HEADER (R201). -/
def State.writeControl (v : Word) (s : State) : State :=
  if controlRestart v then s.restart (controlKeepFeeds v)
  else
    let s1 := s.storeControl v
    let s2 := if controlRun v then s1.run else s1.halt
    if controlLoadHeader v then s2.wantHeader else s2

/-- A write to SWEEP (R182). -/
def State.writeSweep (s : State) : State := if s.rt.mode = .running then s.wantSweep else s

/-- A read of CHANGE covering some of its bytes (R172, R195, R196). -/
def State.readChange (lanes : BitVec 4) (s : State) : State :=
  { s with
    port :=
      { s.port with
        readData := s.readBytes 0x10 lanes
        change := if s.port.ackExplicit then s.port.change else 0 } }

/-- A write to CHANGE (R195, R196). -/
def State.writeChange (v : Word) (s : State) : State :=
  if s.port.ackExplicit then { s with port := { s.port with change := s.port.change &&& ~~~v } } else s

/-- A write to STATE (R198). -/
def State.writeState (v : Word) (s : State) : State :=
  { s with port := { s.port with events := s.port.events &&& ~~~(v.extractLsb' 0 5) } }

/-- A write of the register window (R172, R173): whole words act on their register, anything narrower is dropped. -/
def State.writeRegister (offset : BitVec 12) (lanes : BitVec 4) (v : Word) (s : State) : State :=
  if lanes ≠ 0xF then s
  else if offset = 0x00 then { s with port := { s.port with areaLow := v &&& 0xFFFFF000 } }
  else if offset = 0x04 then { s with port := { s.port with areaHigh := v } }
  else if offset = 0x08 then s.writeControl v
  else if offset = 0x0C then s.writeSweep
  else if offset = 0x10 then s.writeChange v
  else if offset = 0x14 then s.writeState v
  else s

end Machine

end Sys2Proof
end

