-- ==== Sys2Proof/Machine/RequestOps.lean ====
section
/-! DEFINITION. Requests: what the Unit Sequencer does with a unit request and the Feed Controller with a feed request
that a sweep delivers (chapters 2, 3, 4, 8). -/

namespace Sys2Proof

namespace Machine

/-! ### ENLIST (R26 to R28, R54, R73) -/

/-- The managed units latched on a line. -/
def Runtime.managedOn (k : LineIx) (r : Runtime) : List UnitIx :=
  (List.finRange Config.units).filter fun u => (r.units[u]).managed && decide (r.units[u].config.line = k)

/-- The line has room for another unit at the address (R28). -/
def Runtime.lineAdmits (c : UnitConfig) (r : Runtime) : Bool :=
  decide ((r.managedOn c.line).length < lineUnitLimit)
    && (r.managedOn c.line).all fun u => decide (r.units[u].config.address ≠ c.address)

/-- The record of a unit that is enlisted: the starting values, with the result edition and the answer fields kept
(R26). -/
def UnitRecord.enlist (c : UnitConfig) (m : LatchedImage) (tag : Byte) (st : RunState) (x : UnitRecord) : UnitRecord :=
  { UnitRecord.reset with
    config := c
    image := m
    probePending := true
    run := st
    inFlight := some { request := .enlist, tag := tag }
    answerTag := x.answerTag
    answerCode := x.answerCode
    resultEdition := x.resultEdition }

/-- The state an enlisted unit is placed in, but for PROBING, which a unit whose feed is ON goes on to (R54). -/
def enlistedState (m : SupplyState) : RunState :=
  match m with
  | .gap | .settling => .riding
  | .startup | .up | .pending => .waitFeed

/-- An ENLIST is taken (R54). -/
def State.takeEnlist (u : UnitIx) (c : UnitConfig) (tag : Byte) (s : State) : State :=
  let st := enlistedState s.monitor.supply
  let on := s.feedOn c.feed
  s.onRt fun r =>
    let r1 := r.updUnit u (UnitRecord.enlist c (latchedImage c.image r.directory[c.image]) tag st)
    let r2 := if st = .waitFeed ∧ on then r1.contact u .probing else r1
    r2.enqueue (.unitResult u)

/-- An ENLIST with no request in flight (R73). -/
def State.enlist (u : UnitIx) (tag : Byte) (data : List Byte) (s : State) : State :=
  if (s.rt.units[u]).managed then s.onRt (Runtime.answer u tag .refusedState)
  else
    match unitConfigAt data with
    | none => s.onRt (Runtime.answer u tag .refusedBad)
    | some c =>
      if s.rt.lineAdmits c then
        let s1 := s.onRt (Runtime.refreshSuspect c.image)
        if s1.rt.latchPasses c.image c.kind then s1.takeEnlist u c tag else s1.onRt (Runtime.answer u tag .refusedBad)
      else s.onRt (Runtime.answer u tag .refusedBad)

/-! ### RETIRE (R74) -/

/-- A RETIRE (R74): the unit leaves management. -/
def Runtime.retire (u : UnitIx) (tag : Byte) (r : Runtime) : Runtime :=
  if (r.units[u]).managed then
    let r1 := (r.withdraw u).closeInFlight u .cancelled
    ((r1.updUnit u UnitRecord.leave).answer u tag .done).resumeRounds
  else r.answer u tag .refusedState

/-! ### RELOAD (R75) -/

/-- A unit restarts its run as COLD (R75). Where its withdrawal frees the slot of its line, the begin works that this lets
post join before its own HELLO_ASK (log 37). -/
def Runtime.reattend (u : UnitIx) (r : Runtime) : Runtime :=
  ((r.withdraw u).updUnit u fun x => x.stopTimers.derive .cold).runStart u fun r => r.contact u .attending

/-- What follows a RELOAD, by the state it is taken in (R75). -/
def Runtime.reloadEffect (u : UnitIx) (on : Bool) (r : Runtime) : Runtime :=
  match r.units[u].run with
  | .running | .held | .checking | .attending | .loading | .verifying | .restoring => r.reattend u
  | .probing => ((r.withdraw u).updUnit u UnitRecord.stopTimers).runStart u fun r => r.contact u .probing
  | .failed =>
    if on then r.reattend u else r.updUnit u fun x => { x.derive .cold with run := .waitFeed }
  | .waitFeed => r.updUnit u UnitRecord.feedCold
  | .riding | .unmanaged => r

/-- A RELOAD (R75). -/
def Runtime.reload (u : UnitIx) (tag : Byte) (on : Bool) (r : Runtime) : Runtime :=
  if (r.units[u]).managed then
    let r1 := (r.updUnit u fun x => { x with forceCold := true }).closeInFlight u .cut
    let r2 := r1.updUnit u fun x => { x with inFlight := some { request := .reload, tag := tag } }
    (r2.reloadEffect u on).resumeRounds
  else r.answer u tag .refusedState

/-! ### CONTEXT_EDIT (R44, R45) -/

/-- The refusal of a CONTEXT_EDIT, if a check fails (R44). -/
def UnitRecord.editRefusal (base : Word) (c : Context) (x : UnitRecord) : Option AnswerCode :=
  if x.run = .unmanaged then some .refusedState
  else if base ≠ x.contextSeq then some .stale
  else if x.config.kind = .door then
    if x.contextPresent && doorEditAllowed x.context c then none else some .refusedBad
  else if displayModeDefined c then none
  else some .refusedBad

/-- A CONTEXT_EDIT (R44, R45). -/
def Runtime.edit (u : UnitIx) (tag : Byte) (base : Word) (c : Context) (r : Runtime) : Runtime :=
  match (r.units[u]).editRefusal base c with
  | some code => r.answer u tag code
  | none =>
    let r1 := Runtime.enqueue (.unitResult u) (r.updUnit u fun x => { x.store c with editPending := true })
    if r.units[u].run = .running ∨ r.units[u].run = .held then
      (r1.updUnit u fun x => { x with inFlight := some { request := .contextEdit, tag := tag } }).post u (.put .edit)
    else r1.answer u tag .done

/-! ### RELEASE_DOOR (R76) -/

/-- The refusal of a RELEASE_DOOR, if a check fails (R76). -/
def UnitRecord.releaseRefusal (x : UnitRecord) : Option AnswerCode :=
  if x.run = .unmanaged then some .refusedState
  else if x.config.kind ≠ .door then some .refusedBad
  else if x.run ≠ .held then some .refusedState
  else none

/-- A RELEASE_DOOR (R76). -/
def Runtime.release (u : UnitIx) (tag : Byte) (r : Runtime) : Runtime :=
  match (r.units[u]).releaseRefusal with
  | some code => r.answer u tag code
  | none =>
    (r.updUnit u fun x => { x with inFlight := some { request := .releaseDoor, tag := tag } }).post u (.put .release)

/-! ### The order of the checks (R72) -/

/-- A unit request with no request in flight, or one that may displace it (R72). -/
def State.takeUnitRequest (u : UnitIx) (q : UnitRequest) (tag : Byte) (data : List Byte) (s : State) : State :=
  match q with
  | .enlist => s.enlist u tag data
  | .retire => s.onRt (Runtime.retire u tag)
  | .reload => s.onRt (Runtime.reload u tag (s.feedOn s.rt.units[u].config.feed))
  | .contextEdit => s.onRt (Runtime.edit u tag (editBaseAt data) (editContextAt data))
  | .releaseDoor => s.onRt (Runtime.release u tag)

/-- A unit request that a sweep delivers (R72, R184). -/
def State.unitRequest (u : UnitIx) (data : List Byte) (s : State) : State :=
  let tag := unitRequestTagAt data
  match unitRequestOfCode (unitRequestCodeAt data) with
  | none => s.onRt (Runtime.answer u tag .refusedBad)
  | some q =>
    if (s.rt.units[u].inFlight).isSome ∧ q ≠ .retire ∧ q ≠ .reload then s.onRt (Runtime.answer u tag .refusedBusy)
    else s.takeUnitRequest u q tag data

/-- A request is new (R178). -/
def requestNew (tag adopted : Byte) : Bool := tag != 0 && tag != adopted

/-- What a sweep's unit burst brings (R178, R184). -/
def State.unitBurst (u : UnitIx) (data : List Byte) (s : State) : State :=
  let tag := unitRequestTagAt data
  if requestNew tag s.port.adoptedUnit[u] then
    { s with port := { s.port with adoptedUnit := s.port.adoptedUnit.set u tag } }.unitRequest u data
  else s

/-! ### Feed requests (R95 to R98, R185) -/

/-- The feed requests (section 11.10). -/
inductive FeedRequest where
  | on
  | off
  | clear
  deriving DecidableEq, Repr

/-- Feed request, none for an undefined code. -/
def feedRequestOfCode (b : Byte) : Option FeedRequest :=
  if b = 1 then some .on else if b = 2 then some .off else if b = 3 then some .clear else none

/-- The effect and the answer of a feed request (R95). -/
def FeedControl.take (up : Bool) (f : FeedIx) (q : Option FeedRequest) (fc : FeedControl) : FeedControl × AnswerCode :=
  match q with
  | none => (fc, .refusedBad)
  | some .on => fc.switchOn up f
  | some .off => (fc.switchOff up f, .done)
  | some .clear => fc.clear up f

/-- A feed request that a sweep delivers is taken and answered (R95); switching off a feed that was served gives the left
ON notice (R97). -/
def State.feedRequest (f : FeedIx) (q : Option FeedRequest) (tag : Byte) (s : State) : State :=
  let d := s.feeds.take s.supplyUp f q
  let s1 := (s.setFeeds (d.1.answer f tag d.2)).onRt (Runtime.enqueue (.feedStatus f))
  if q = some .off ∧ (s.feeds.feed[f]).served then s1.onRt (Runtime.leftOn f) else s1

/-- The offset of a feed entry in the feed burst (section 11.4). -/
def feedOffset (f : FeedIx) : Nat := 32 * f.val

/-- A feed entry's configuration becomes the feed's offered configuration (R80, R185). -/
def State.deliverFeed (data : List Byte) (f : FeedIx) (s : State) : State :=
  s.setFeeds (s.feeds.upd f fun x => { x with offered := feedConfigAt data (feedOffset f) })

/-- The request tag of a feed entry in the feed burst. -/
def feedTagAt (data : List Byte) (f : FeedIx) : Byte := byteAt data (feedOffset f + 9)

/-- The request of a feed entry in the feed burst. -/
def feedRequestAt (data : List Byte) (f : FeedIx) : Option FeedRequest :=
  feedRequestOfCode (byteAt data (feedOffset f + 8))

/-- What a sweep's feed burst brings for one feed (R80, R178, R185). -/
def State.feedEntry (data : List Byte) (s : State) (f : FeedIx) : State :=
  let s1 := s.deliverFeed data f
  if requestNew (feedTagAt data f) s.port.adoptedFeed[f] then
    { s1 with port := { s1.port with adoptedFeed := s1.port.adoptedFeed.set f (feedTagAt data f) } }.feedRequest f
      (feedRequestAt data f) (feedTagAt data f)
  else s1

/-- What a sweep's feed burst brings (R185). -/
def State.feedBurst (data : List Byte) (s : State) : State :=
  (List.finRange Config.feeds).foldl (State.feedEntry data) s

end Machine

end Sys2Proof
end

