-- ==== Sys2Proof/Machine/AreaOps.lean ====
section
/-! DEFINITION. The Area Port's bursts and item writes: which claimant is served and what it reads, what a burst's bytes
bring, image fetches, and the items written (chapters 7, 8). -/

namespace Sys2Proof

namespace Machine

/-- An address in the area: the latched base plus an offset, modulo 2^64 (R173). -/
def areaAddress (base : Dword) (offset : Nat) : Dword := base + BitVec.ofNat 64 offset

/-! ### The read path (R174, R175, R183) -/

/-- The unit that a sweep's burst reads; the first two bursts read the directory and the feed entries (R183). -/
def burstUnit (n : Nat) : Option UnitIx := if n < 2 then none else finBelow Config.units (n - 2)

/-- The offset in the area that a sweep's burst reads (section 8.2, R183). -/
def burstOffset (n : Nat) : Nat := if n = 0 then 0x400 else if n = 1 then 0x100 else 0x800 + 128 * (n - 2)

/-- The bytes a sweep's burst reads (R183). -/
def burstLength (n : Nat) : Nat := if n < 2 then 512 else 64

/-- The burst the sweep engine claims for its job (R183, R188). -/
def jobBurst (base : Dword) (j : Job) : ReadBurst :=
  match j with
  | .header => { user := .header, live := true, timer := 0, address := areaAddress base 0, length := 256 }
  | .sweep n =>
    { user := .sweep n, live := true, timer := 0, address := areaAddress base (burstOffset n), length := burstLength n }
  | .adopting n =>
    { user := .adopting n, live := true, timer := 0, address := areaAddress base (burstOffset n), length := burstLength n }

/-- The burst of a fetch request (R165). -/
def fetchBurst (q : FetchRequest) : ReadBurst :=
  { user := .fetch q true, live := true, timer := 0, address := q.address, length := q.length }

/-- The fetch list waits for the read path; it is served in RUNNING (R165, section 9.4). -/
def State.fetchWaits (s : State) : Option FetchRequest :=
  if s.rt.mode = .running then s.rt.fetchList.head? else none

/-- A burst of the sweep engine is sent (R175). -/
def State.sendJob (j : Job) (s : State) : State :=
  { s with
    rt := { s.rt with read := some (jobBurst s.port.base j) }
    port := { s.port with engineHadLast := true } }

/-- The burst of the oldest fetch request is sent, and the request leaves the list (R165, R175). -/
def State.sendFetch (q : FetchRequest) (s : State) : State :=
  { s with
    rt := { s.rt with read := some (fetchBurst q), fetchList := s.rt.fetchList.tail }
    port := { s.port with engineHadLast := false } }

/-- The next burst is sent on the free read path: with both claimants waiting, the one that did not have the previous
burst is served (R175). None where no claimant waits or the path is not free. -/
def State.sendBurst (s : State) : Option State :=
  match s.rt.read with
  | some _ => none
  | none =>
    match s.port.job, s.fetchWaits with
    | none, none => none
    | some j, none => some (s.sendJob j)
    | none, some q => some (s.sendFetch q)
    | some j, some q => some (if s.port.engineHadLast then s.sendFetch q else s.sendJob j)

/-- The burst is over, and the read path is free. -/
def State.endBurst (s : State) : State := s.onRt fun r => { r with read := none }

/-! ### Sweeps (R179, R183, R186) -/

/-- The directory copy is replaced (R145). -/
def Runtime.replaceDirectory (data : List Byte) (r : Runtime) : Runtime :=
  { r with directory := Vector.ofFn fun i : ImageIx => directoryEntryAt data (32 * i.val) }

/-- What a burst of a sweep brings (R183). -/
def State.sweepBurst (n : Nat) (data : List Byte) (s : State) : State :=
  if n = 0 then s.onRt (Runtime.replaceDirectory data)
  else if n = 1 then s.feedBurst data
  else
    match burstUnit n with
    | some u => s.unitBurst u data
    | none => s

/-- The sweep goes on to its next burst, or ends: the sweep timer starts again, and the engine takes its next job
(R183, R186). -/
def State.nextSweepBurst (n : Nat) (s : State) : State :=
  if n + 1 < sweepBursts then { s with port := { s.port with job := some (.sweep (n + 1)) } }
  else { s with port := { s.port with job := none, sweepTimer := 0, sweepTimerOn := true } }.engineNext

/-- What a burst of the adopting sweep brings: tags are adopted, and no request is delivered (R179). -/
def State.adoptBurst (n : Nat) (data : List Byte) (s : State) : State :=
  if n = 0 then s.onRt (Runtime.replaceDirectory data)
  else if n = 1 then
    let s1 := (List.finRange Config.feeds).foldl (fun s f => s.deliverFeed data f) s
    { s1 with port := { s1.port with adoptedFeed := Vector.ofFn fun f : FeedIx => feedTagAt data f } }
  else
    match burstUnit n with
    | some u => { s with port := { s.port with adoptedUnit := s.port.adoptedUnit.set u (unitRequestTagAt data) } }
    | none => s

/-- The adopting sweep goes on to its next burst, or ends the start (R179, R202). -/
def State.nextAdoptBurst (n : Nat) (s : State) : State :=
  if n + 1 < sweepBursts then { s with port := { s.port with job := some (.adopting (n + 1)) } }
  else s.enterRunning

/-- The read burst outstanding for a user that `act` takes completes with the bytes it asked for: they are acted on, or,
where its user has ended, it only frees the path (R174). Nothing completes where no such burst is outstanding. -/
def State.completeBurst (data : List Byte) (act : ReadUser → Option (State → State)) (s : State) : State :=
  match s.rt.read with
  | none => s
  | some b =>
    match act b.user with
    | none => s
    | some go => if data.length = b.length then (if b.live then go s.endBurst else s.endBurst) else s

/-! ### Header loads (R188) -/

/-- The header's settings are clamped and handed to their blocks, CLAMPED is raised once if any value was clamped, and
the header edition is adopted (R84, R188). -/
def State.loadHeader (data : List Byte) (s : State) : State :=
  let h := headerFields data
  let c := clampHeader h
  let s1 := { s with rt := { s.rt with settings := c.settings } }
  let s2 := s1.setFeeds (s1.feeds.deliverBudget s1.supplyUp c.budget)
  let s3 := if headerClamped h then s2.raise .clamped else s2
  { s3 with port := { s3.port with adoptedEdition := c.edition } }.onRt (Runtime.enqueue .headerStatus)

/-- What follows a header load: the adopting sweep at a start, RUNNING at a recovery, the engine's next job otherwise
(R180, R202, R204). -/
def State.afterHeader (s : State) : State :=
  if s.port.starting then { s with port := { s.port with job := some (.adopting 0) } }
  else if s.port.recovering then s.enterRunning
  else { s with port := { s.port with job := none } }.engineNext

/-! ### Image fetches (R165 to R167) -/

/-- A transfer is abandoned: its units end in FAILED with IMAGE_CHANGED, its transaction is abandoned, and the slot
becomes FREE (R166). -/
def Runtime.abandonTransfer (k : LineIx) (r : Runtime) : Runtime :=
  match r.lines[k].slot with
  | .free => r
  | .alone u => r.failRun u .imageChanged
  | .group g => g.members.foldl (fun r m => r.failRun m.unit .imageChanged) r

/-- An image is marked suspect, and every transfer of its index and edition is abandoned (R166, R167). -/
def Runtime.markSuspect (m : LatchedImage) (r : Runtime) : Runtime :=
  (r.setSuspect m.index (some m.edition)).eachLine fun k r =>
    match r.transferImage k with
    | some x => if x.index = m.index ∧ x.edition = m.edition then r.abandonTransfer k else r
    | none => r

/-- The work that waits for a block is posted (R152, R153, R156, R157, R160, R165). -/
def Runtime.blockHeld (k : LineIx) (b : Nat) (r : Runtime) : Runtime :=
  if r.lines[k].waitBlock = some b then
    let r1 := r.updLine k fun l => { l with waitBlock := none }
    match r1.lines[k].slot with
    | .free => r1
    | .alone u => r1.post u .block
    | .group _ => r1.updLine k LineRecord.listGroup
  else r

/-- The fetch was the last of the first pass, and the running CRC-32 differs from the image's (R166). -/
def crcMismatch (q : FetchRequest) (m : LatchedImage) (crc : Option Word) : Bool :=
  q.firstPass && decide (q.block + 1 = m.blockCount) && decide (crc.map crc32Final ≠ some m.crc)

/-- A block fetch completes (R165, R166). -/
def Runtime.fetched (q : FetchRequest) (data : List Byte) (r : Runtime) : Runtime :=
  let r1 := r.updLine q.line fun l =>
    let l1 := l.placeBlock q.second { index := q.block, data := data }
    if q.firstPass then { l1 with crc := l1.crc.map fun c => crc32Over c data } else l1
  match r1.transferImage q.line with
  | none => r1
  | some m =>
    if crcMismatch q m r1.lines[q.line].crc then r1.markSuspect m else r1.blockHeld q.line q.block

/-! ### The write path (R177, R191) -/

/-- The 72 bytes of the header status (section 11.3). -/
def State.headerStatus (s : State) : List Byte :=
  halfBytes s.port.adoptedEdition ++ [byteOf s.feeds.budget, 0] ++ halfBytes (halfOf s.monitor.flickers) ++ [0, 0]
    ++ (s.rt.lines.toList.map lineCounters).flatten

/-- The suspect byte of each directory entry, with the offset it is written at (section 11.6, R177). -/
def State.suspectBytes (s : State) : List (Nat × List Byte) :=
  (List.finRange Config.images).map fun i => (0x400 + 32 * i.val + 0x14, [if (s.rt.suspect[i]).isSome then 1 else 0])

/-- The bytes of an item, with the offset in the area of each run of them (R177, chapter 11). -/
def State.itemBytes (s : State) : Item → List (Nat × List Byte)
  | .unitResult u => [(0x800 + 128 * u.val + 0x40, resultPart s.rt.units[u])]
  | .feedStatus f => [(0x100 + 32 * f.val + 0x10, feedStatus s.feeds.feed[f])]
  | .gapList => [(0x300, gapMirror s.monitor.gapList)]
  | .headerStatus => (0x80, s.headerStatus) :: s.suspectBytes

/-- The item taken for a write; a unit's result edition goes up first (R38, R191). -/
def Runtime.takeItem (i : Item) (rest : List Item) (r : Runtime) : Runtime :=
  let r1 := { r with queue := rest }
  match i with
  | .unitResult u =>
    { r1 with units := r1.units.set u { r1.units[u] with resultEdition := r1.units[u].resultEdition + 1 } }
  | .feedStatus _ | .gapList | .headerStatus => r1

/-- The write of an item begins: its content is read as it stands (R191). -/
def State.beginWrite (i : Item) (rest : List Item) (s : State) : State :=
  let s1 := s.onRt (Runtime.takeItem i rest)
  { s1 with
    port :=
      { s1.port with
        write := some
          { item := i, live := true, timer := 0
            writes := (s1.itemBytes i).map fun w => (areaAddress s.port.base w.1, w.2) } } }

/-- The oldest item is written, in RUNNING with the write path free (R191). None where that does not hold. -/
def State.sendItem (s : State) : Option State :=
  match s.port.write, s.rt.queue with
  | none, i :: rest => if s.rt.mode = .running then some (s.beginWrite i rest) else none
  | _, _ => none

/-- The CHANGE bit of a unit is set (R194). -/
def Port.notice (u : UnitIx) (p : Port) : Port := { p with change := p.change ||| (1 <<< u.val) }

/-- The outstanding write completes: the path is free, and a unit result whose user has not ended sets its CHANGE bit
(R191, R194). -/
def State.completeWrite (s : State) : State :=
  match s.port.write with
  | none => s
  | some w =>
    let p := { s.port with write := none }
    match w.live, w.item with
    | true, .unitResult u => { s with port := p.notice u }
    | _, _ => { s with port := p }

end Machine

end Sys2Proof
end

