-- ==== Sys2Proof/Machine/TimedOps.lean ====
section
/-! DEFINITION. What a tick does, and the steps that its comparisons bring about, each with the condition that it still
meets when it is taken (chapters 1, 3, 4, 8; log 3). -/

namespace Sys2Proof

namespace Machine

/-! ### Steps that a tick brings about -/

/-- A second ends (R2). -/
def State.endSecond (s : State) : State :=
  if s.clock.seconds + 1 = Config.ticksPerSecond then
    { s with clock := { s.clock with seconds := 0, uptime := s.clock.uptime + 1 } }
  else s

/-- A timer runs and has counted since it was set to 0. -/
def counted (t : Option Nat) : Bool :=
  match t with
  | some n => decide (1 ≤ n)
  | none => false

/-- The unit is being contacted (R60). -/
def UnitRecord.contacting (x : UnitRecord) : Bool := decide (x.run = .probing ∨ x.run = .attending)

/-- The unit is in service (R68). -/
def UnitRecord.serving (x : UnitRecord) : Bool := decide (x.run = .running ∨ x.run = .held)

/-- A boot timer expires: the expiry is held while an attempt is outstanding, otherwise the run fails (R60). -/
def Runtime.bootExpiry (u : UnitIx) (r : Runtime) : Runtime :=
  if (r.units[u]).contacting ∧ r.units[u].bootTimer = some r.units[u].config.bootTimeout then
    if (r.lines[r.units[u].config.line]).serves u then r.updUnit u fun x => { x with bootHeld := true }
    else r.failRun u .bootTimeout
  else r

/-- An attend timer expires: the next HELLO_ASK attempt is posted (R60). -/
def Runtime.attendExpiry (u : UnitIx) (r : Runtime) : Runtime :=
  if (r.units[u]).contacting ∧ counted r.units[u].attendTimer then
    (r.updUnit u fun x => { x with attendTimer := none }).post u .hello
  else r

/-- A poll timer expires: a poll is posted (R68). -/
def Runtime.pollExpiry (u : UnitIx) (r : Runtime) : Runtime :=
  if (r.units[u]).serving ∧ counted r.units[u].pollTimer ∧ r.busy u = false then r.post u .poll else r

/-- The sweep timer expires: it stops, and the sweep-wanted flag is set (R181). -/
def State.sweepExpiry (s : State) : State :=
  if s.rt.mode = .running ∧ s.port.sweepTimerOn ∧ 1 ≤ s.port.sweepTimer ∧ s.port.sweeping = false then
    { s with port := { s.port with sweepTimerOn := false } }.wantSweep
  else s

/-- The outstanding read burst has run out of time (R174). -/
def State.readLate (s : State) : Bool :=
  match s.rt.read with
  | some b => b.live && decide (completionLimit ≤ b.timer)
  | none => false

/-- The outstanding write has run out of time (R174). -/
def State.writeLate (s : State) : Bool :=
  match s.port.write with
  | some w => w.live && decide (completionLimit ≤ w.timer)
  | none => false

/-- The effect of a step that a tick found due, where its condition still stands. -/
def State.dueEffect (s : State) : Due → State
  | .uptimeSecond => s.endSecond
  | .gapDeclared => if s.monitor.supply = .pending then s.declareGap else s
  | .shedCommand => if s.monitor.supply = .gap ∧ s.monitor.shed = false then s.shed else s
  | .settlingEnd => if s.monitor.supply = .settling then s.endSettling else s
  | .mainSwitchOn f => if (s.feeds.feed[f]).mainDue then s.setFeeds (s.feeds.switchMain f) else s
  | .feedReachedOn f => if (s.feeds.feed[f]).onDue then s.feedReachesOn f else s
  | .cooldownEnd f => if (s.feeds.feed[f]).cooldownDue then s.cooldownEnds f else s
  | .provingTimeReached f => if (s.feeds.feed[f]).provingDue 0 then s.setFeeds (s.feeds.prove f) else s
  | .bootTimeout u => s.onRt (Runtime.bootExpiry u)
  | .attendTimerExpiry u => s.onRt (Runtime.attendExpiry u)
  | .pollTimerExpiry u => s.onRt (Runtime.pollExpiry u)
  | .sweepTimerExpiry => s.sweepExpiry
  | .completionTimeout .read => if s.readLate then s.failRead else s
  | .completionTimeout .write => if s.writeLate then s.failWrite else s

/-- A step that the latest tick found due is taken, once (log 3). -/
def State.takeDue (s : State) (d : Due) : State :=
  if d ∈ s.due then State.dueEffect { s with due := s.due.erase d } d else s

/-- Every step still due from the tick before is taken (log 3). -/
def State.flush (s : State) : State := s.due.foldl State.takeDue s

/-! ### Counting -/

/-- The prescaler passes from 4095 to 0, and every line's time runs to that moment (R1). -/
def State.runToTick (s : State) : State :=
  let s1 := s.elapse (Config.clocksPerTick - s.clock.prescaler)
  { s1 with clock := { s1.clock with prescaler := 0 } }

/-- The seconds divider counts the tick; passing from 3999 is the step UPTIME_SECOND (R2). -/
def State.countSecond (s : State) : State :=
  if s.clock.seconds + 1 = Config.ticksPerSecond then { s with due := [.uptimeSecond] }
  else { s with clock := { s.clock with seconds := s.clock.seconds + 1 }, due := [] }

/-- A unit's run timers count on; the poll timer only while the unit has no line work (R50). -/
def UnitRecord.countTimers (busy : Bool) (x : UnitRecord) : UnitRecord :=
  { x with
    bootTimer := x.bootTimer.map satInc
    attendTimer := x.attendTimer.map satInc
    pollTimer := if busy then x.pollTimer else x.pollTimer.map satInc }

/-- Every unit's run timers, and the completion timer of the read path, count on (R50, R174). -/
def Runtime.countTimers (r : Runtime) : Runtime :=
  { r with
    units := Vector.ofFn fun u : UnitIx => (r.units[u]).countTimers (r.busy u)
    read := r.read.map fun b => { b with timer := b.timer + 1 } }

/-- The sweep timer and the completion timer of the write path count on (R174, R181). -/
def State.countPort (s : State) : State :=
  { s with
    port :=
      { s.port with
        sweepTimer :=
          if s.rt.mode = .running ∧ s.port.sweepTimerOn ∧ s.port.sweeping = false then s.port.sweepTimer + 1
          else s.port.sweepTimer
        write := s.port.write.map fun w => { w with timer := w.timer + 1 } } }

/-! ### The blocks on a tick -/

/-- The Feed Controller takes its samples, its timers count on, and the feeds whose fault is accepted trip (R87, R88). -/
def State.tickFeeds (fault : BitVec 16) (s : State) : State :=
  let fc := s.feeds.sampleAll fault
  fc.tripping.foldl (fun s f => s.trip f) { s with feeds := fc }

/-- The Supply Monitor applies the rule for a change that its filter accepts (R7 to R14). -/
def State.supplyChange (s : State) (rep : SupplyReport) : State :=
  match rep, s.monitor.supply with
  | .initial true, .startup => { s with monitor := s.monitor.toUp }.considerAdmission
  | .initial false, .startup => { s with monitor := s.monitor.beginAbsent s.uptimeNow }.handGap
  | .loss, .up => { s with monitor := s.monitor.lose }
  | .back, .pending =>
    let s1 := { s with monitor := s.monitor.flicker }
    let s2 := if s1.monitor.flickers = s.monitor.flickers then s1 else s1.onRt (Runtime.enqueue .headerStatus)
    s2.considerAdmission
  | .back, .gap => { s with monitor := s.monitor.settle }
  | .loss, .settling => { s with monitor := s.monitor.merge }
  | _, _ => s

/-- The first two steps of the Supply Monitor's tick: its timers, then its filter (R7). -/
def State.tickSupply (lineOk : Bool) (s : State) : State :=
  let m := s.monitor.advance
  let d := m.filter.sample lineOk
  let s1 := { s with monitor := { m with filter := d.1 } }
  match d.2 with
  | some rep => s1.supplyChange rep
  | none => s1

/-! ### Comparisons -/

/-- A condition's step, where it holds. -/
def dueIf (c : Bool) (d : Due) : List Due := if c then [d] else []

/-- The steps due for a feed (R85, R89, R90). -/
def State.dueFeed (s : State) (f : FeedIx) : List Due :=
  dueIf (s.feeds.feed[f]).mainDue (.mainSwitchOn f) ++ dueIf (s.feeds.feed[f]).onDue (.feedReachedOn f)
    ++ dueIf (s.feeds.feed[f]).cooldownDue (.cooldownEnd f)
    ++ dueIf ((s.feeds.feed[f]).provingDue s.rt.settings.provingTime) (.provingTimeReached f)

/-- The steps due for a unit (R50, R51). -/
def State.dueUnit (s : State) (u : UnitIx) : List Due :=
  dueIf ((s.rt.units[u]).contacting && decide (s.rt.units[u].bootTimer = some s.rt.units[u].config.bootTimeout))
      (.bootTimeout u)
    ++ dueIf ((s.rt.units[u]).contacting && reached s.rt.units[u].attendTimer s.rt.settings.attendInterval)
      (.attendTimerExpiry u)
    ++ dueIf ((s.rt.units[u]).serving && reached s.rt.units[u].pollTimer s.rt.settings.pollInterval && !s.rt.busy u)
      (.pollTimerExpiry u)

/-- The sweep timer has reached the sweep interval (R181). -/
def State.sweepDue (s : State) : Bool :=
  decide (s.rt.mode = .running) && s.port.sweepTimerOn && !s.port.sweeping
    && decide (s.rt.settings.sweepInterval ≤ s.port.sweepTimer)

/-- The comparisons of a tick: the steps found due, in the order in which they are taken where no command takes them
first (log 3). -/
def State.compare (s : State) : State :=
  { s with
    due :=
      s.due ++ (s.monitor.dueStep s.rt.settings).toList ++ (List.finRange Config.feeds).flatMap s.dueFeed
        ++ (List.finRange Config.units).flatMap s.dueUnit ++ dueIf s.sweepDue .sweepTimerExpiry
        ++ dueIf s.readLate (.completionTimeout .read) ++ dueIf s.writeLate (.completionTimeout .write) }

/-- One tick (R1, R7, R50, R88, R174, R181): what was due from the tick before is taken first, then time runs to the
tick, every timer counts, the Feed Controller and the Supply Monitor act, and the comparisons are made (log 4). -/
def State.tick (lineOk : Bool) (fault : BitVec 16) (s : State) : State :=
  let s1 := s.flush.runToTick.countSecond
  let s2 := (s1.onRt Runtime.countTimers).countPort
  ((s2.tickFeeds fault).tickSupply lineOk).compare

end Machine

end Sys2Proof
end

