-- ==== Sys2Proof/Machine/Area.lean ====
section
/-! DEFINITION. The Area Port's steps: the sweep timer, failures of bus accesses, read bursts and item writes. -/

namespace Sys2Proof

namespace Machine

/-- SWEEP_TIMER_EXPIRY (R181). -/
def execSweepTimerExpiry (s : State) : Host.Outcome State Fault Refusal := .next (s.takeDue .sweepTimerExpiry)

/-- COMPLETION_TIMEOUT (R174). -/
def execCompletionTimeout (path : BusPath) (s : State) : Host.Outcome State Fault Refusal :=
  .next (s.takeDue (.completionTimeout path))

/-- BUS_ERROR_COMPLETION (R174). -/
def execBusErrorCompletion (path : BusPath) (s : State) : Host.Outcome State Fault Refusal :=
  match path with
  | .read => .next s.failRead
  | .write => .next s.failWrite

/-- READ_BURST_SEND (R175): a burst that the bus port cannot send has failed (R174). -/
def execReadBurstSend (sendable : Bool) (s : State) : Host.Outcome State Fault Refusal :=
  match s.sendBurst with
  | none => .next s
  | some t => .next (if sendable then t else t.failRead)

/-- SWEEP_BURST_COMPLETE (R183). -/
def execSweepBurstComplete (data : List Byte) (s : State) : Host.Outcome State Fault Refusal :=
  .next <| s.completeBurst data fun
    | .sweep n => some fun s => (s.sweepBurst n data).nextSweepBurst n
    | _ => none

/-- ADOPTING_SWEEP_BURST_COMPLETE (R179). -/
def execAdoptingSweepBurstComplete (data : List Byte) (s : State) : Host.Outcome State Fault Refusal :=
  .next <| s.completeBurst data fun
    | .adopting n => some fun s => (s.adoptBurst n data).nextAdoptBurst n
    | _ => none

/-- HEADER_LOAD_COMPLETE (R188). -/
def execHeaderLoadComplete (data : List Byte) (s : State) : Host.Outcome State Fault Refusal :=
  .next <| s.completeBurst data fun
    | .header => some fun s => (s.loadHeader data).afterHeader
    | _ => none

/-- FETCH_COMPLETE (R165): a fetch whose slot has become FREE has no effect. -/
def execFetchComplete (data : List Byte) (s : State) : Host.Outcome State Fault Refusal :=
  .next <| s.completeBurst data fun
    | .fetch q wanted => some fun s => if wanted then s.onRt (Runtime.fetched q data) else s
    | _ => none

/-- WRITE_BEGIN (R191): a write that the bus port cannot send has failed (R174, R192). -/
def execWriteBegin (sendable : Bool) (s : State) : Host.Outcome State Fault Refusal :=
  match s.sendItem with
  | none => .next s
  | some t => .next (if sendable then t else t.failWrite)

/-- WRITE_COMPLETE (R191). -/
def execWriteComplete (s : State) : Host.Outcome State Fault Refusal := .next s.completeWrite

end Machine

end Sys2Proof
end

