-- ==== Sys2Proof/Machine/Control.lean ====
section
/-! DEFINITION. The host's register accesses: the writes of CONTROL by the field a row names (log 14), SWEEP, CHANGE,
STATE and any other write of the window. -/

namespace Sys2Proof

namespace Machine

/-- A value written to CONTROL with RESTART at 0. -/
def withoutRestart (v : Word) : Word := v &&& ~~~4

/-- RUN_START (R202): RUN written as 1. -/
def execRunStart (v : Word) (s : State) : Host.Outcome State Fault Refusal :=
  .next (s.writeControl (withoutRestart v ||| 1))

/-- RUN_RECOVERY (R204): RUN written as 1. -/
def execRunRecovery (v : Word) (s : State) : Host.Outcome State Fault Refusal :=
  .next (s.writeControl (withoutRestart v ||| 1))

/-- RUN_STOP (R205): RUN written as 0. -/
def execRunStop (v : Word) (s : State) : Host.Outcome State Fault Refusal :=
  .next (s.writeControl (withoutRestart v &&& ~~~1))

/-- LOAD_HEADER (R187): LOAD_HEADER written as 1. -/
def execLoadHeader (v : Word) (s : State) : Host.Outcome State Fault Refusal :=
  .next (s.writeControl (withoutRestart v ||| 2))

/-- RESTART (R206): RESTART written as 1. -/
def execRestart (v : Word) (s : State) : Host.Outcome State Fault Refusal := .next (s.writeControl (v ||| 4))

/-- ACK_MODE (R196, R201). -/
def execAckMode (v : Word) (s : State) : Host.Outcome State Fault Refusal := .next (s.writeControl (withoutRestart v))

/-- CHANGE_IE (R200, R201). -/
def execChangeIe (v : Word) (s : State) : Host.Outcome State Fault Refusal := .next (s.writeControl (withoutRestart v))

/-- STATE_IE (R200, R201). -/
def execStateIe (v : Word) (s : State) : Host.Outcome State Fault Refusal := .next (s.writeControl (withoutRestart v))

/-- SWEEP (R182): taken whatever value is written. -/
def execSweep (_v : Word) (s : State) : Host.Outcome State Fault Refusal := .next s.writeSweep

/-- CHANGE_READ (R172, R195, R196). -/
def execChangeRead (lanes : BitVec 4) (s : State) : Host.Outcome State Fault Refusal := .next (s.readChange lanes)

/-- CHANGE_WRITE (R195, R196). -/
def execChangeWrite (v : Word) (s : State) : Host.Outcome State Fault Refusal := .next (s.writeChange v)

/-- STATE_WRITE (R198). -/
def execStateWrite (v : Word) (s : State) : Host.Outcome State Fault Refusal := .next (s.writeState v)

/-- REGISTER_WRITE (R172, R173). -/
def execRegisterWrite (offset : BitVec 12) (lanes : BitVec 4) (v : Word) (s : State) :
    Host.Outcome State Fault Refusal :=
  .next (s.writeRegister offset lanes v)

end Machine

end Sys2Proof
end

