-- ==== Sys2Proof/Machine/Feeds.lean ====
section
/-! DEFINITION. The Feed Controller's timed steps: MAIN_SWITCH_ON, FEED_REACHED_ON, COOLDOWN_END and
PROVING_TIME_REACHED. -/

namespace Sys2Proof

namespace Machine

/-- MAIN_SWITCH_ON (R85). -/
def execMainSwitchOn (f : FeedIx) (s : State) : Host.Outcome State Fault Refusal := .next (s.takeDue (.mainSwitchOn f))

/-- FEED_REACHED_ON (R85). -/
def execFeedReachedOn (f : FeedIx) (s : State) : Host.Outcome State Fault Refusal := .next (s.takeDue (.feedReachedOn f))

/-- COOLDOWN_END (R89). -/
def execCooldownEnd (f : FeedIx) (s : State) : Host.Outcome State Fault Refusal := .next (s.takeDue (.cooldownEnd f))

/-- PROVING_TIME_REACHED (R90). -/
def execProvingTimeReached (f : FeedIx) (s : State) : Host.Outcome State Fault Refusal :=
  .next (s.takeDue (.provingTimeReached f))

end Machine

end Sys2Proof
end

