-- ==== Sys2Proof/Machine/EventOps.lean ====
section
/-! DEFINITION. The events of a line: for each, the condition of the line in which it comes about, and its effect
(chapters 5, 6). -/

namespace Sys2Proof

namespace Machine

/-! ### The end of an attempt -/

/-- The line finishes an abandoned attempt: it enters IDLE, and a round that was under way goes on (R119, R162). -/
def Runtime.finishAbandoned (k : LineIx) (r : Runtime) : Runtime := (r.updLine k LineRecord.toIdle).resumeRound k

/-- The line enters IDLE with the outcome SENT, unless the attempt was abandoned (R106, R119). -/
def Runtime.sentEnd (k : LineIx) (r : Runtime) : Runtime :=
  if r.lines[k].abandoned then r.finishAbandoned k else (r.updLine k LineRecord.toIdle).endTxn k .sent

/-! ### FRAME_TRANSMITTED, PAUSE_END (R106) -/

/-- The closing bit time after the frame's last character has ended (R106). -/
def LineRecord.frameOver (l : LineRecord) : Bool :=
  decide (l.state = .sending) && !l.pausing &&
    match l.frame with
    | some f => decide (frameClocks l.latched.divisor f ≤ l.phaseTimer)
    | none => false

/-- The reply window opens (R106, R112). -/
def LineRecord.openWindow (l : LineRecord) : LineRecord :=
  { l with state := .awaiting, phaseTimer := 0, firstReply := some 0, interChar := none, silence := none }

/-- The pause after a frame that expects no reply begins (R106). -/
def LineRecord.beginPause (l : LineRecord) : LineRecord := { l with pausing := true, phaseTimer := 0 }

/-- DE_n is released after a frame: the attempt was abandoned, the reply window opens, or the pause begins (R106,
R119). -/
def Runtime.frameSent (k : LineIx) (r : Runtime) : Runtime :=
  match r.lines[k].frame with
  | none => r
  | some f =>
    if r.lines[k].abandoned then r.finishAbandoned k
    else if f.replyExpected then r.updLine k LineRecord.openWindow
    else if f.pause = 0 then r.sentEnd k
    else r.updLine k LineRecord.beginPause

/-- The pause has ended (R106). -/
def LineRecord.pauseOver (l : LineRecord) : Bool :=
  decide (l.state = .sending) && l.pausing &&
    match l.frame with
    | some f => decide (f.pause * charClocks l.latched.divisor ≤ l.phaseTimer)
    | none => false

/-! ### QUIET (R118) -/

/-- The break half has ended (R118). -/
def LineRecord.breakHalfOver (l : LineRecord) : Bool :=
  decide (l.state = .quiet) && !l.idleHalf && decide (twoCharClocks l.latched ≤ l.phaseTimer)

/-- The idle half begins (R118). -/
def LineRecord.beginIdleHalf (l : LineRecord) : LineRecord := { l with idleHalf := true, phaseTimer := 0 }

/-- The idle half has ended (R118). -/
def LineRecord.quietOver (l : LineRecord) : Bool :=
  decide (l.state = .quiet) && l.idleHalf && decide (twoCharClocks l.latched ≤ l.phaseTimer)

/-- QUIET ends: the flag is cleared, and the handed frame begins, unless the attempt was abandoned (R118, R119). -/
def Runtime.quietEnds (k : LineIx) (r : Runtime) : Runtime :=
  let r1 := r.updLine k fun l => { l with quietOwed := false }
  if r1.lines[k].abandoned then r1.finishAbandoned k else r1.beginFrame k

/-! ### Characters (R107 to R111) -/

/-- The receiver looks for a start bit (R107). -/
def LineRecord.listening (l : LineRecord) : Bool := decide (l.state ≠ .stopped) && l.receiving.isNone

/-- A character is being received. -/
def LineRecord.receivingNow (l : LineRecord) : Bool := decide (l.state ≠ .stopped) && l.receiving.isSome

/-- The samples are those that the receiver has taken since the latest it heard: one every divisor clocks (R107). -/
def LineRecord.upToDate (xs : List SampleRun) (l : LineRecord) : Bool :=
  decide (sampleCount xs = l.rxClock / l.latched.divisor)

/-- The samples of a whole character have been taken (R107). -/
def LineRecord.characterOver (l : LineRecord) : Bool := decide (characterSamples * l.latched.divisor ≤ l.rxClock)

/-- The receiver hears a number of samples: the clock of its sampling runs on from the last of them (R107). -/
def LineRecord.passSamples (n : Nat) (l : LineRecord) : LineRecord :=
  { l with rxClock := l.rxClock - n * l.latched.divisor }

/-- The receiver hears samples, and the high timer follows them (R107, R111). -/
def LineRecord.hear (xs : List SampleRun) (l : LineRecord) : LineRecord :=
  { l.passSamples (sampleCount xs) with high := l.high.map (highAfter l.latched.divisor (sampleLevels xs)) }

/-- The last sample so far confirms a start bit (R107). -/
def LineRecord.startConfirmed (xs : List SampleRun) (l : LineRecord) : Bool :=
  l.listening && l.upToDate xs && l.hunt.confirms (sampleLevels xs)

/-- A start bit is confirmed: a character waiting in the shift register is lost, the window's timers stop or are held,
and its low samples restart the high timer (R107, R108, R111, R112, R114, R115). -/
def LineRecord.startBit (xs : List SampleRun) (l : LineRecord) : LineRecord :=
  { l.hear xs with
    receiving := some l.shift.isSome
    overruns := if l.shift.isSome then satInc l.overruns else l.overruns
    shift := none
    state := if l.state = .awaiting then .receiving else l.state
    interChar := none
    silence := none }

/-- The samples of a character without the break flag have been taken (R107, R109). -/
def LineRecord.characterHeard (xs : List SampleRun) (l : LineRecord) : Bool :=
  l.receivingNow && decide (sampleCount xs = characterSamples) && l.characterOver && readBits (sampleLevels xs) != 0

/-- A character has completed: after a stop bit that read low, RXD_n must read high before the next fall (R107). -/
def LineRecord.huntAgain (stopHigh : Bool) (l : LineRecord) : LineRecord :=
  { l with receiving := none, hunt := if stopHigh then .high else .waitHigh }

/-- A completed character joins the FIFO, or waits in the shift register where the FIFO is full (R108). -/
def LineRecord.admitChar (c : RxChar) (l : LineRecord) : LineRecord :=
  if l.fifo.length < fifoLimit then { l with fifo := l.fifo ++ [c] } else { l with shift := some c }

/-- A character goes to the assembler by the FIFO, and the timers that run from its completion start (R108, R113 to
R115). -/
def LineRecord.takeChar (c : RxChar) (l : LineRecord) : LineRecord :=
  let m := (l.admitChar c).pump
  { m with
    silence := some 0
    interChar := if m.assembly.underWay && decide (m.state = .receiving) then some 0 else none }

/-- Characters are counted as strays (R109, R116, R119). -/
def LineRecord.addStrays (n : Nat) (l : LineRecord) : LineRecord := { l with strays := satAdd l.strays n }

/-- A character without the break flag completes: into the FIFO in AWAITING and RECEIVING, otherwise a stray (R109). -/
def LineRecord.charComplete (c : RxChar) (l : LineRecord) : LineRecord :=
  let m := l.huntAgain (!c.framing)
  if l.state = .awaiting ∨ l.state = .receiving then m.takeChar c else m.addStrays 1

/-- The character completes, as its ten bits read. -/
def Runtime.charReceived (k : LineIx) (xs : List SampleRun) (r : Runtime) : Runtime :=
  match r.lines[k].receiving with
  | none => r
  | some overrun => r.updLine k fun l => (l.hear xs).charComplete (rxChar (readBits (sampleLevels xs)) overrun)

/-- The samples of a break have been taken (R107, R110). -/
def LineRecord.breakHeard (l : LineRecord) : Bool := l.receivingNow && l.characterOver

/-- The line has heard a break: RXD_n must read high before the next start bit (R107). -/
def LineRecord.hearBreak (l : LineRecord) : LineRecord := (l.passSamples characterSamples).huntAgain false

/-- A break completes (R110). -/
def Runtime.breakReceived (k : LineIx) (r : Runtime) : Runtime :=
  match r.lines[k].state with
  | .quiet | .stopped => r.updLine k LineRecord.hearBreak
  | .faulted => r.updLine k fun l => { l.hearBreak with high := some 0 }
  | .idle | .sending | .awaiting | .receiving =>
    (r.updLine k fun l => l.hearBreak.toFaulted).failAttempt k .lineFault

/-! ### FRAME_RECEIVED (R113, R116, R127, R128) -/

/-- The frame the assembler holds. -/
def LineRecord.heldFrame (l : LineRecord) : Option (List Byte) :=
  match l.assembly with
  | .held bytes => some bytes
  | _ => none

/-- A clean frame is held in an open window. -/
def LineRecord.frameHeld (l : LineRecord) : Bool := decide (l.state = .receiving) && l.heldFrame.isSome

/-- The frame answers the attempt (R116). -/
def LineRecord.answers (bytes : List Byte) (l : LineRecord) : Bool :=
  match l.frame with
  | some f => decide (receivedAddress bytes = f.address ∧ receivedSeq bytes = f.seq)
  | none => false

/-- The window closes: what is left in the FIFO is stray, and the line enters IDLE (R115, R116). -/
def LineRecord.closeWindow (l : LineRecord) : LineRecord := l.spill.toIdle

/-- A stray frame is discarded: the assembler goes on with what has arrived meanwhile, and with nothing there the line
returns to AWAITING (R112, R116). -/
def LineRecord.dropFrame (n : Nat) (l : LineRecord) : LineRecord :=
  let m := ({ l.addStrays n with assembly := .idle }).pump
  if m.assembly ≠ .idle ∨ m.receiving.isSome then
    { m with interChar := if m.assembly.underWay && m.receiving.isNone then m.silence else none }
  else { m with state := .awaiting, interChar := none, silence := none }

/-- A reply is checked against the request (R127, R128): a BLOCK_BAD that passes in reply to an IMAGE_BLOCK is a failed
attempt. -/
def Runtime.replyTaken (k : LineIx) (bytes : List Byte) (r : Runtime) : Runtime :=
  match r.lines[k].txn with
  | none => r
  | some t =>
    match replyOf (receivedKind bytes) (receivedPayload bytes) with
    | none => r.endTxn k .protocol
    | some rep =>
      if replyAccepted t.kind t.block rep then
        match t.kind, rep with
        | .imageBlock, .blockBad _ => r.failAttempt k .blockBad
        | _, _ => r.endTxn k (.reply rep)
      else r.endTxn k .protocol

/-- A clean frame is handed: it ends an abandoned attempt, answers the attempt, or is a stray frame (R116, R119). -/
def Runtime.frameReceived (k : LineIx) (r : Runtime) : Runtime :=
  match r.lines[k].heldFrame with
  | none => r
  | some bytes =>
    if r.lines[k].abandoned then
      (r.updLine k fun l => (l.addStrays bytes.length).closeWindow).resumeRound k
    else if r.lines[k].answers bytes then (r.updLine k LineRecord.closeWindow).replyTaken k bytes
    else r.updLine k (LineRecord.dropFrame bytes.length)

/-! ### Timeouts (R112, R114, R115) -/

/-- The first-reply timer has reached the timeout (R112). -/
def LineRecord.replyLate (l : LineRecord) : Bool :=
  decide (l.state = .awaiting) && reached l.firstReply (firstReplyClocks l.latched)

/-- The reply window closes with NO_REPLY (R112). -/
def Runtime.noReply (k : LineIx) (r : Runtime) : Runtime := (r.updLine k LineRecord.toIdle).failAttempt k .noReply

/-- The inter-character timer has reached the gap limit (R114). -/
def LineRecord.gapLate (l : LineRecord) : Bool :=
  decide (l.state = .receiving) && l.assembly.underWay && reached l.interChar (gapClocks l.latched)

/-- The frame in assembly is damaged, and its discard begins (R114, R115). -/
def LineRecord.beginDiscard (l : LineRecord) : LineRecord :=
  match l.assembly with
  | .collecting bytes => { l with assembly := .discarding bytes.length, interChar := none }
  | _ => l

/-- The discard of a damaged frame is over (R115). -/
def LineRecord.discardOver (l : LineRecord) : Bool :=
  decide (l.state = .receiving) &&
    match l.assembly with
    | .discarding n => decide (discardLimit ≤ n) || reached l.silence (gapClocks l.latched)
    | _ => false

/-- The discard ends: the attempt ends DAMAGED, or, abandoned, with its characters counted as strays (R115, R119). -/
def Runtime.discardEnds (k : LineIx) (r : Runtime) : Runtime :=
  match r.lines[k].assembly with
  | .discarding n =>
    if r.lines[k].abandoned then (r.updLine k fun l => (l.addStrays n).closeWindow).resumeRound k
    else (r.updLine k fun l => { l.closeWindow with damaged := satInc l.damaged }).failAttempt k .damaged
  | _ => r

/-- With the samples so far, RXD_n has read high for 2 character times in FAULTED (R111). -/
def LineRecord.highOver (xs : List SampleRun) (l : LineRecord) : Bool :=
  decide (l.state = .faulted) && l.listening && l.upToDate xs && (l.hunt.hear (sampleLevels xs)).isSome
    && reached (l.hear xs).high (twoCharClocks l.latched)

/-- The receiver has heard samples without a start bit (R107). -/
def LineRecord.listen (xs : List SampleRun) (l : LineRecord) : LineRecord :=
  { l.hear xs with hunt := (l.hunt.hear (sampleLevels xs)).getD l.hunt }

/-- FAULTED ends (R111). -/
def Runtime.faultEnds (k : LineIx) (xs : List SampleRun) (r : Runtime) : Runtime :=
  (r.updLine k (LineRecord.listen xs)).finishAbandoned k

/-! ### The arbiter (R136) -/

/-- The arbiter makes a choice (R136). -/
def LineRecord.arbiterReady (l : LineRecord) : Bool :=
  l.txn.isNone && (decide (l.state = .idle) || decide (l.state = .faulted)) && !l.waitList.isEmpty && !l.midRound

/-- The arbiter chooses, and the chosen work starts (R136). -/
def Runtime.arbitrate (k : LineIx) (r : Runtime) : Runtime :=
  match r.choose k r.lines[k].waitList with
  | none => r
  | some e => r.startEntry k e

end Machine

end Sys2Proof
end

