-- ==== Sys2Proof/Machine/Lines.lean ====
section
/-! DEFINITION. The events of the unit lines. -/

namespace Sys2Proof

namespace Machine

/-- FRAME_TRANSMITTED (R106). -/
def execFrameTransmitted (k : LineIx) (clk : Nat) (s : State) : Host.Outcome State Fault Refusal :=
  .next (s.lineEvent k clk LineRecord.frameOver (Runtime.frameSent k))

/-- PAUSE_END (R106). -/
def execPauseEnd (k : LineIx) (clk : Nat) (s : State) : Host.Outcome State Fault Refusal :=
  .next (s.lineEvent k clk LineRecord.pauseOver (Runtime.sentEnd k))

/-- QUIET_BREAK_HALF_END (R118). -/
def execQuietBreakHalfEnd (k : LineIx) (clk : Nat) (s : State) : Host.Outcome State Fault Refusal :=
  .next (s.lineEvent k clk LineRecord.breakHalfOver (Runtime.updLine k LineRecord.beginIdleHalf))

/-- QUIET_END (R118). -/
def execQuietEnd (k : LineIx) (clk : Nat) (s : State) : Host.Outcome State Fault Refusal :=
  .next (s.lineEvent k clk LineRecord.quietOver (Runtime.quietEnds k))

/-- CHARACTER_RECEIVED (R107 to R109, R113): ten bits that all read low are a break, which is no such character. -/
def execCharacterReceived (k : LineIx) (clk : Nat) (samples : List SampleRun) (s : State) :
    Host.Outcome State Fault Refusal :=
  .next (s.lineEvent k clk (LineRecord.characterHeard samples) (Runtime.charReceived k samples))

/-- BREAK_RECEIVED (R110). -/
def execBreakReceived (k : LineIx) (clk : Nat) (s : State) : Host.Outcome State Fault Refusal :=
  .next (s.lineEvent k clk LineRecord.breakHeard (Runtime.breakReceived k))

/-- FRAME_RECEIVED (R116), at the moment its last character completed. -/
def execFrameReceived (k : LineIx) (s : State) : Host.Outcome State Fault Refusal :=
  .next (s.lineEvent k 0 LineRecord.frameHeld (Runtime.frameReceived k))

/-- FIRST_REPLY_TIMEOUT (R112). -/
def execFirstReplyTimeout (k : LineIx) (clk : Nat) (s : State) : Host.Outcome State Fault Refusal :=
  .next (s.lineEvent k clk LineRecord.replyLate (Runtime.noReply k))

/-- INTER_CHARACTER_TIMEOUT (R114). -/
def execInterCharacterTimeout (k : LineIx) (clk : Nat) (s : State) : Host.Outcome State Fault Refusal :=
  .next (s.lineEvent k clk LineRecord.gapLate (Runtime.updLine k LineRecord.beginDiscard))

/-- DISCARD_END (R115). -/
def execDiscardEnd (k : LineIx) (clk : Nat) (s : State) : Host.Outcome State Fault Refusal :=
  .next (s.lineEvent k clk LineRecord.discardOver (Runtime.discardEnds k))

/-- HIGH_TIMER_EXPIRY (R111). -/
def execHighTimerExpiry (k : LineIx) (moment : SampledMoment) (s : State) : Host.Outcome State Fault Refusal :=
  .next (s.lineEvent k moment.clk (LineRecord.highOver moment.samples) (Runtime.faultEnds k moment.samples))

/-- ARBITER_CHOICE (R136). -/
def execArbiterChoice (k : LineIx) (s : State) : Host.Outcome State Fault Refusal :=
  .next (s.lineEvent k 0 LineRecord.arbiterReady (Runtime.arbitrate k))

/-- START_BIT_CONFIRMED (R107). -/
def execStartBitConfirmed (k : LineIx) (moment : SampledMoment) (s : State) : Host.Outcome State Fault Refusal :=
  .next (s.lineEvent k moment.clk (LineRecord.startConfirmed moment.samples)
    (Runtime.updLine k (LineRecord.startBit moment.samples)))

end Machine

end Sys2Proof
end

