-- ==== Sys2Proof/Machine/Resets.lean ====
section
/-! DEFINITION. The resets and the time base: POWER_ON_RESET, LINK_RESET, TICK and UPTIME_SECOND. -/

namespace Sys2Proof

namespace Machine

/-- POWER_ON_RESET: every block takes its power-on values (R24, R49, R100, R122, R144, R171, R193, R208). -/
def execPowerOnReset (s : State) : Host.Outcome State Fault Refusal := .next { State.reset with pending := s.pending }

/-- LINK_RESET: a controller restart with KEEP_FEEDS set (R207). -/
def execLinkReset (s : State) : Host.Outcome State Fault Refusal := .next (s.restart true)

/-- TICK, with the samples of LINE_OK and of the FAULT inputs (R1, R3, R7, R87, R88). -/
def execTick (lineOk : Bool) (fault : BitVec 16) (s : State) : Host.Outcome State Fault Refusal :=
  .next (s.tick lineOk fault)

/-- UPTIME_SECOND (R2). -/
def execUptimeSecond (s : State) : Host.Outcome State Fault Refusal := .next (s.takeDue .uptimeSecond)

end Machine

end Sys2Proof
end

