-- ==== Sys2Proof/Machine/Supply.lean ====
section
/-! DEFINITION. The Supply Monitor's steps: GAP_DECLARED, SHED_COMMAND and SETTLING_END. -/

namespace Sys2Proof

namespace Machine

/-- GAP_DECLARED (R10). -/
def execGapDeclared (s : State) : Host.Outcome State Fault Refusal := .next (s.takeDue .gapDeclared)

/-- SHED_COMMAND (R12). -/
def execShedCommand (s : State) : Host.Outcome State Fault Refusal := .next (s.takeDue .shedCommand)

/-- SETTLING_END (R15). -/
def execSettlingEnd (s : State) : Host.Outcome State Fault Refusal := .next (s.takeDue .settlingEnd)

end Machine

end Sys2Proof
end

