-- ==== Sys2Proof/Machine/Units.lean ====
section
/-! DEFINITION. The run timers' steps: BOOT_TIMEOUT, ATTEND_TIMER_EXPIRY and POLL_TIMER_EXPIRY. -/

namespace Sys2Proof

namespace Machine

/-- BOOT_TIMEOUT (R60). -/
def execBootTimeout (u : UnitIx) (s : State) : Host.Outcome State Fault Refusal := .next (s.takeDue (.bootTimeout u))

/-- ATTEND_TIMER_EXPIRY (R60). -/
def execAttendTimerExpiry (u : UnitIx) (s : State) : Host.Outcome State Fault Refusal :=
  .next (s.takeDue (.attendTimerExpiry u))

/-- POLL_TIMER_EXPIRY (R68). -/
def execPollTimerExpiry (u : UnitIx) (s : State) : Host.Outcome State Fault Refusal :=
  .next (s.takeDue (.pollTimerExpiry u))

end Machine

end Sys2Proof
end

