-- ==== Sys2Proof/Machine/Dispatch.lean ====
section
/-! DEFINITION. Every command and its meaning, one arm per constructor. -/

namespace Sys2Proof

namespace Machine

/-- The effect of a command on everything but the queue of waiting commands. -/
def exec (i : Instr) (s : State) : Host.Outcome State Fault Refusal :=
  match i with
  | .powerOnReset => Sys2Proof.Machine.execPowerOnReset s
  | .linkReset => Sys2Proof.Machine.execLinkReset s
  | .tick lineOk fault => Sys2Proof.Machine.execTick lineOk fault s
  | .uptimeSecond => Sys2Proof.Machine.execUptimeSecond s
  | .gapDeclared => Sys2Proof.Machine.execGapDeclared s
  | .shedCommand => Sys2Proof.Machine.execShedCommand s
  | .settlingEnd => Sys2Proof.Machine.execSettlingEnd s
  | .mainSwitchOn f => Sys2Proof.Machine.execMainSwitchOn f s
  | .feedReachedOn f => Sys2Proof.Machine.execFeedReachedOn f s
  | .cooldownEnd f => Sys2Proof.Machine.execCooldownEnd f s
  | .provingTimeReached f => Sys2Proof.Machine.execProvingTimeReached f s
  | .bootTimeout u => Sys2Proof.Machine.execBootTimeout u s
  | .attendTimerExpiry u => Sys2Proof.Machine.execAttendTimerExpiry u s
  | .pollTimerExpiry u => Sys2Proof.Machine.execPollTimerExpiry u s
  | .sweepTimerExpiry => Sys2Proof.Machine.execSweepTimerExpiry s
  | .completionTimeout path => Sys2Proof.Machine.execCompletionTimeout path s
  | .busErrorCompletion path => Sys2Proof.Machine.execBusErrorCompletion path s
  | .readBurstSend sendable => Sys2Proof.Machine.execReadBurstSend sendable s
  | .sweepBurstComplete data => Sys2Proof.Machine.execSweepBurstComplete data s
  | .adoptingSweepBurstComplete data => Sys2Proof.Machine.execAdoptingSweepBurstComplete data s
  | .headerLoadComplete data => Sys2Proof.Machine.execHeaderLoadComplete data s
  | .fetchComplete data => Sys2Proof.Machine.execFetchComplete data s
  | .writeBegin sendable => Sys2Proof.Machine.execWriteBegin sendable s
  | .writeComplete => Sys2Proof.Machine.execWriteComplete s
  | .runStart v => Sys2Proof.Machine.execRunStart v s
  | .runRecovery v => Sys2Proof.Machine.execRunRecovery v s
  | .runStop v => Sys2Proof.Machine.execRunStop v s
  | .loadHeader v => Sys2Proof.Machine.execLoadHeader v s
  | .restart v => Sys2Proof.Machine.execRestart v s
  | .ackMode v => Sys2Proof.Machine.execAckMode v s
  | .changeIe v => Sys2Proof.Machine.execChangeIe v s
  | .stateIe v => Sys2Proof.Machine.execStateIe v s
  | .sweep v => Sys2Proof.Machine.execSweep v s
  | .changeRead lanes => Sys2Proof.Machine.execChangeRead lanes s
  | .changeWrite v => Sys2Proof.Machine.execChangeWrite v s
  | .stateWrite v => Sys2Proof.Machine.execStateWrite v s
  | .registerWrite offset lanes v => Sys2Proof.Machine.execRegisterWrite offset lanes v s
  | .frameTransmitted k clk => Sys2Proof.Machine.execFrameTransmitted k clk s
  | .pauseEnd k clk => Sys2Proof.Machine.execPauseEnd k clk s
  | .quietBreakHalfEnd k clk => Sys2Proof.Machine.execQuietBreakHalfEnd k clk s
  | .quietEnd k clk => Sys2Proof.Machine.execQuietEnd k clk s
  | .characterReceived k clk samples => Sys2Proof.Machine.execCharacterReceived k clk samples s
  | .breakReceived k clk => Sys2Proof.Machine.execBreakReceived k clk s
  | .frameReceived k => Sys2Proof.Machine.execFrameReceived k s
  | .firstReplyTimeout k clk => Sys2Proof.Machine.execFirstReplyTimeout k clk s
  | .interCharacterTimeout k clk => Sys2Proof.Machine.execInterCharacterTimeout k clk s
  | .discardEnd k clk => Sys2Proof.Machine.execDiscardEnd k clk s
  | .highTimerExpiry k moment => Sys2Proof.Machine.execHighTimerExpiry k moment s
  | .arbiterChoice k => Sys2Proof.Machine.execArbiterChoice k s
  | .startBitConfirmed k moment => Sys2Proof.Machine.execStartBitConfirmed k moment s

end Machine

end Sys2Proof
end

