-- ==== Sys2Proof/Safety.lean ====
section
/-! DEFINITION. What every state of a run is held to, in the terms that the statements use. -/

namespace Sys2Proof

namespace Machine

/-- The feeds in SOFTSTART together hold no more than the budget in force, the budgets lie in their range, and a budget
is pending only while a soft start runs (R82, R84). -/
def FeedControl.WithinBudget (fc : FeedControl) : Prop :=
  fc.shares ≤ fc.budget ∧ 1 ≤ fc.budget ∧ fc.budget ≤ 63
    ∧ (∀ b, fc.pendingBudget = some b → 1 ≤ b ∧ b ≤ 63 ∧ fc.starting = true)

/-- The admission list holds the feeds in WAITING, each once (R81). -/
def FeedControl.ListsTheWaiting (fc : FeedControl) : Prop :=
  fc.admission.Nodup ∧ ∀ f : FeedIx, f ∈ fc.admission ↔ fc.feed[f].state = .waiting

/-- The area write queue holds each item at most once (R189). -/
def Runtime.QueuesOnce (r : Runtime) : Prop := r.queue.Nodup

/-- The counts of the Supply Monitor stay in range, a capture is held in SETTLING alone with its over-range flag as its
duration says, and the gap counter is 0 in STARTUP and UP (R6, R9, R13, R14, R19, section 1.3). -/
def Monitor.Sound (m : Monitor) : Prop :=
  m.gapCounter ≤ 65535 ∧ m.settleTimer ≤ 65535 ∧ m.flickers ≤ 65535 ∧ m.gapList.length ≤ 8
    ∧ (m.capture.isSome = true ↔ m.supply = .settling)
    ∧ (∀ c, m.capture = some c → c.duration ≤ 65535 ∧ (c.overRange = true ↔ c.duration = 65535))
    ∧ (m.supply = .startup ∨ m.supply = .up → m.gapCounter = 0)

/-- A line is stopped with nothing to do (R120, R133). -/
def LineRecord.Stopped (l : LineRecord) : Prop :=
  l.state = .stopped ∧ l.txn = none ∧ l.waitList = [] ∧ l.slot = .free

/-- Between a gap's declaration and the end of its settling, every managed unit is in RIDING and every line is stopped
(R55, R120). -/
def State.QuietInGap (s : State) : Prop :=
  s.monitor.supply = .gap ∨ s.monitor.supply = .settling →
    (∀ u : UnitIx, s.rt.units[u].run = .unmanaged ∨ s.rt.units[u].run = .riding)
      ∧ ∀ k : LineIx, (s.rt.lines[k]).Stopped

/-! ### A unit's image, feed and rounds -/

/-- The checks of a latch pass for an index and a kind: the entry of the copy is valid and for the kind, and carries no
suspect mark but one set for another edition, which the latch clears (R147, R167). -/
def Runtime.latchable (i : ImageIx) (kind : UnitKind) (r : Runtime) : Bool :=
  directoryValid r.directory[i] && decide (kindOfCode r.directory[i].kindCode = kind)
    && (r.suspect[i]).all fun e => decide (e ≠ r.directory[i].edition)

/-- The checks of a latch pass for the unit (R147). -/
def Runtime.unitLatchable (u : UnitIx) (r : Runtime) : Bool :=
  r.latchable r.units[u].config.image r.units[u].config.kind

/-- A latch of the unit would find the edition and the CRC-32 it latched before (R29). -/
def Runtime.sameImage (u : UnitIx) (r : Runtime) : Bool :=
  decide (r.directory[r.units[u].config.image].edition = r.units[u].image.edition)
    && decide (r.directory[r.units[u].config.image].crc = r.units[u].image.crc)

/-- The unit is a member with its load still to be made of every group whose round has a step with it to come (R155,
R161). -/
def Runtime.StepsOfItsGroup (u : UnitIx) (r : Runtime) : Prop :=
  ∀ (k : LineIx) (g : Group), (r.lines[k]).slot = .group g → some u ∈ g.todo →
    r.units[u].run = .loading ∧ r.units[u].config.line = k ∧ g.isMember u = true

/-- A request in flight is answered (R72). -/
def UnitRecord.Answered (q : InFlight) (code : AnswerCode) (y : UnitRecord) : Prop :=
  y.inFlight = none ∧ y.answerTag = q.tag ∧ y.answerCode = code

/-- What the left ON notice of its feed makes of a managed unit (R59). -/
def UnitRecord.LeftOn (x y : UnitRecord) : Prop :=
  y.forceCold = true ∧ y.context = x.context ∧ y.contextSeq = x.contextSeq ∧ y.probePending = x.probePending
    ∧ (x.run = .riding ∨ x.run = .failed →
        y.run = x.run ∧ y.runClass = x.runClass ∧ y.inFlight = x.inFlight)
    ∧ (x.run ≠ .riding → x.run ≠ .failed →
        y.run = .waitFeed
          ∧ (x.probePending = true → y.runClass = x.runClass)
          ∧ (x.probePending = false → y.runClass = .cold ∧ y.origin = .derived))
    ∧ (x.run = .waitFeed → y.inFlight = x.inFlight)
    ∧ (x.run ≠ .riding → x.run ≠ .failed → x.run ≠ .waitFeed →
        y.bootTimer = none ∧ y.attendTimer = none ∧ y.pollTimer = none
          ∧ (x.run = .loading ∨ x.run = .verifying → y.imageValid = false)
          ∧ ∀ q, x.inFlight = some q →
              if q.request = .contextEdit ∨ q.request = .releaseDoor then y.Answered q .cut else y.inFlight = some q)

/-! ### Lines -/

/-- A reply to a unit's own work stands in the line's frame buffer: a clean frame that answers the outstanding attempt,
and that the request accepts (R116, R127, R128). -/
def State.Replies (k : LineIx) (u : UnitIx) (w : Work) (rep : Reply) (s : State) : Prop :=
  ∃ (bytes : List Byte) (f : TxFrame) (x : Transaction),
    s.clock.prescaler < 4096 ∧ s.rt.lines[k].state = .receiving ∧ s.rt.lines[k].assembly = .held bytes
      ∧ s.rt.lines[k].abandoned = false ∧ s.rt.lines[k].frame = some f ∧ receivedAddress bytes = f.address
      ∧ receivedSeq bytes = f.seq ∧ replyOf (receivedKind bytes) (receivedPayload bytes) = some rep
      ∧ s.rt.lines[k].txn = some x ∧ x.contender = .single u w ∧ x.kind = workKind w
      ∧ replyAccepted x.kind x.block rep = true

/-- A unit enters LOADING and takes its load step: its begin work is posted where its line's slot is FREE; in AREA_FAULT
its run fails instead (R64, R149). -/
def State.EntersLoading (u : UnitIx) (s t : State) : Prop :=
  t.rt.units[u].imageValid = false
    ∧ (s.rt.mode = .areaFault → t.rt.units[u].run = .failed ∧ t.rt.units[u].cause = .area)
    ∧ (s.rt.mode ≠ .areaFault → t.rt.units[u].run = .loading
        ∧ (s.rt.lines[s.rt.units[u].config.line].slot = .free → t.rt.units[u].loadStep = .beginPosted)
        ∧ (s.rt.lines[s.rt.units[u].config.line].slot ≠ .free → t.rt.units[u].loadStep = .slotWait))

/-- A unit's next work stands on its line's wait list: at the tail, or in the place of the work it had there (R135). -/
def State.PostsWork (k : LineIx) (u : UnitIx) (w : Work) (s t : State) : Prop :=
  s.rt.units[u].config.line = k → t.rt.lines[k].waitList = ((s.rt.lines[k]).list u w).waitList

/-- The stored context, its sequence and the context-present flag are as they were (R40). -/
def UnitRecord.KeepsContext (x y : UnitRecord) : Prop :=
  y.context = x.context ∧ y.contextSeq = x.contextSeq ∧ y.contextPresent = x.contextPresent

/-- A reported context is adopted, unless edit-pending is set (R40, R43). -/
def UnitRecord.Adopts (c : Context) (x y : UnitRecord) : Prop :=
  if x.editPending = true then x.KeepsContext y
  else y.context = c ∧ y.contextSeq = x.contextSeq + 1 ∧ y.contextPresent = true

/-- A unit's run ends in FAILED with a cause: its timers stop, its probe is over, an ENLIST or RELOAD in flight is answered
FAILED, and its context and edit-pending stay (R67, R71). -/
def State.FailsUnit (u : UnitIx) (cause : FailureCause) (s t : State) : Prop :=
  t.rt.units[u].run = .failed ∧ t.rt.units[u].cause = cause ∧ t.rt.units[u].probePending = false
    ∧ t.rt.units[u].bootTimer = none ∧ t.rt.units[u].attendTimer = none ∧ t.rt.units[u].pollTimer = none
    ∧ (s.rt.units[u]).KeepsContext t.rt.units[u] ∧ t.rt.units[u].editPending = s.rt.units[u].editPending
    ∧ (∀ q, s.rt.units[u].inFlight = some q → q.request = .enlist ∨ q.request = .reload →
        (t.rt.units[u]).Answered q .failed)

/-- A unit in service is lost: an edit or release in flight is answered FAILED, the context, edit-pending and the stored
boot count stay, no miss of the class is counted, and a new run attends it, or fails at its latch; the HELLO_ASK joins the
list of line `k` where that is the unit's (R41, R69, R70). A class of COLD for force-cold is log 20's reading of R30. -/
def State.LosesUnit (k : LineIx) (u : UnitIx) (s t : State) : Prop :=
  (s.rt.units[u]).KeepsContext t.rt.units[u] ∧ t.rt.units[u].editPending = s.rt.units[u].editPending
    ∧ t.rt.units[u].bootCount = s.rt.units[u].bootCount ∧ t.rt.units[u].misses = s.rt.units[u].misses
    ∧ t.rt.units[u].pollTimer = none ∧ t.rt.units[u].verdicts = 0 ∧ t.rt.units[u].aloneMark = false
    ∧ (∀ q, s.rt.units[u].inFlight = some q → q.request = .contextEdit ∨ q.request = .releaseDoor →
        (t.rt.units[u]).Answered q .failed)
    ∧ (s.rt.unitLatchable u = false → t.rt.units[u].run = .failed ∧ t.rt.units[u].cause = .imageChanged)
    ∧ (s.rt.unitLatchable u = true →
        t.rt.units[u].run = .attending ∧ t.rt.units[u].bootTimer = some 0 ∧ t.rt.units[u].origin = .derived
          ∧ t.rt.units[u].runClass =
              (if s.rt.units[u].forceCold = true ∨ s.rt.units[u].imageValid = false ∨ s.rt.sameImage u = false then .cold
                else .warm)
          ∧ t.rt.units[u].image
              = latchedImage s.rt.units[u].config.image s.rt.directory[s.rt.units[u].config.image]
          ∧ (s.rt.units[u].config.line = k → Entry.single u .hello ∈ t.rt.lines[k].waitList))

/-- Line `l` was cut and is `m`, which is in IDLE, FAULTED or STOPPED: from then on, for every number of clocks, DE_n and
TXD_n complete the character or the break that was on the wire and nothing after it; where none was, DE_n is released and
TXD_n is high (R103, R110, R118, R120, R122). -/
def LineRecord.CutsTo (l m : LineRecord) : Prop :=
  ∀ d : Nat,
    (∀ f, l.state = .sending → l.pausing = false → l.frame = some f →
        if l.phaseTimer < (7 + f.payload.length) * (176 * l.latched.divisor) then
          (m.elapse d).driverEnabled
              = decide (l.phaseTimer % (176 * l.latched.divisor) + d < 176 * l.latched.divisor)
            ∧ (m.elapse d).txdHigh = (!(m.elapse d).driverEnabled || (l.elapse d).txdHigh)
        else (m.elapse d).driverEnabled = false ∧ (m.elapse d).txdHigh = true)
      ∧ (l.state = .quiet → l.idleHalf = false →
          (m.elapse d).driverEnabled = decide (l.phaseTimer + d < 2 * (176 * l.latched.divisor))
            ∧ (m.elapse d).txdHigh = !(m.elapse d).driverEnabled)
      ∧ (l.state = .sending ∧ l.pausing = true ∨ l.state = .quiet ∧ l.idleHalf = true ∨ l.state = .awaiting
            ∨ l.state = .receiving →
          (m.elapse d).driverEnabled = false ∧ (m.elapse d).txdHigh = true)
      ∧ (l.state = .idle ∨ l.state = .faulted ∨ l.state = .stopped →
          (m.elapse d).driverEnabled = (l.elapse d).driverEnabled ∧ (m.elapse d).txdHigh = (l.elapse d).txdHigh)

/-! ### What a command leaves alone -/

/-- A runtime is as it was but for its write queue (R189). -/
def Runtime.SameButQueue (r t : Runtime) : Prop := t = { r with queue := t.queue }

/-- After an event of line `k`, `clk` reference clocks on, only the runs, the lines and the transfers can have changed:
no other block has, nor the mode, the settings or the directory copy, and no item has left the write queue. -/
def State.WithinRuntime (clk : Nat) (s t : State) : Prop :=
  t.clock = { s.clock with prescaler := s.clock.prescaler + clk } ∧ t.monitor = s.monitor ∧ t.feeds = s.feeds
    ∧ t.port = s.port ∧ t.due = s.due ∧ t.pending = s.pending ∧ t.rt.mode = s.rt.mode
    ∧ t.rt.settings = s.rt.settings ∧ t.rt.directory = s.rt.directory ∧ ∃ l, t.rt.queue = s.rt.queue ++ l

/-- After an event of line `k`, `clk` reference clocks on, nothing but that line and the write queue has changed; on the
other lines time has passed. -/
def State.OnLineAlone (k : LineIx) (clk : Nat) (s t : State) : Prop :=
  s.WithinRuntime clk t ∧ t.rt = { s.rt with lines := t.rt.lines, queue := t.rt.queue }
    ∧ ∀ j : LineIx, j ≠ k → t.rt.lines[j] = (s.rt.lines[j]).elapse clk

end Machine

end Sys2Proof
end

