-- ==== Sys2Proof/Certificates/Slice0/Obligations.lean ====
section
/-! DEFINITION. The statements about the model, for the provers. Each says which rules of the spec it rests on; a
statement that rests on a choice of the model names its log entry. -/

open Sys2Proof Sys2Proof.Machine

/-! ### The queue of commands -/

/-- A step runs the command at the front of the queue with the queue's rest; an empty queue leaves the state as it is
(the model's choice, log 1). -/
def Obligations.StepRunsTheFrontCommand : Prop :=
  ∀ (c : Instr) (q : List Instr) (s : State),
    step { s with pending := c :: q } = exec c { s with pending := q }
      ∧ step { s with pending := [] } = .next { s with pending := [] }

/-- Every command answers a next state, whatever the state, and leaves the queue of commands alone: a failed bus access,
a line fault and a tripped feed are effects, never a stop (logs 1 and 2). -/
def Obligations.EveryCommandAnswers : Prop :=
  ∀ (c : Instr) (s : State), ∃ t, exec c s = .next t ∧ t.pending = s.pending

/-! ### What every step keeps -/

/-- The reset state meets every invariant that a step keeps. -/
def Obligations.ResetMeetsTheInvariants : Prop :=
  State.reset.feeds.WithinBudget ∧ State.reset.feeds.ListsTheWaiting ∧ State.reset.rt.QueuesOnce
    ∧ State.reset.monitor.Sound ∧ State.reset.QuietInGap

/-- R82, R84: the feeds in SOFTSTART never hold more than the budget in force. -/
def Obligations.StepKeepsTheBudget : Prop :=
  ∀ s t : State, s.feeds.WithinBudget → step s = .next t → t.feeds.WithinBudget

/-- R81: the admission list holds the feeds in WAITING, each once. -/
def Obligations.StepKeepsTheAdmissionList : Prop :=
  ∀ s t : State, s.feeds.ListsTheWaiting → step s = .next t → t.feeds.ListsTheWaiting

/-- R189: the area write queue holds each item at most once. -/
def Obligations.StepKeepsTheWriteQueue : Prop :=
  ∀ s t : State, s.rt.QueuesOnce → step s = .next t → t.rt.QueuesOnce

/-- R6, R9, R13, R14, R19: the Supply Monitor's counts, capture and gap list stay sound. -/
def Obligations.StepKeepsTheMonitorSound : Prop :=
  ∀ s t : State, s.monitor.Sound → step s = .next t → t.monitor.Sound

/-- R55, R120: while the Supply Monitor is in GAP or SETTLING, every managed unit is in RIDING and every line is
stopped. -/
def Obligations.StepKeepsTheGapQuiet : Prop :=
  ∀ s t : State, s.QuietInGap → step s = .next t → t.QuietInGap

/-! ### Resets -/

/-- R24, R100, R122, R193, R206, R208: what power-on reset leaves, whatever the state before. -/
def Obligations.PowerOnResetValues : Prop :=
  ∀ s : State, ∃ t, exec .powerOnReset s = .next t ∧ t.pending = s.pending
    ∧ t.clock.prescaler = 0 ∧ t.clock.seconds = 0 ∧ t.clock.uptime = 0
    ∧ t.monitor.supply = .startup ∧ t.monitor.filter.accepted = none ∧ t.monitor.filter.candidate = none
    ∧ t.monitor.gapCounter = 0 ∧ t.monitor.settleTimer = 0 ∧ t.monitor.capture = none ∧ t.monitor.merged = false
    ∧ t.monitor.shed = false ∧ t.monitor.flickers = 0 ∧ t.monitor.gapList = []
    ∧ (∀ f : FeedIx, t.feeds.feed[f].state = .off ∧ t.feeds.feed[f].preOut = false ∧ t.feeds.feed[f].mainOut = false
        ∧ t.feeds.feed[f].tripCount = 0 ∧ t.feeds.feed[f].lastTrip = 0 ∧ t.feeds.feed[f].faultActive = false
        ∧ t.feeds.feed[f].offered.weight = 1 ∧ t.feeds.feed[f].offered.precharge = 1
        ∧ t.feeds.feed[f].offered.settle = 2 ∧ t.feeds.feed[f].offered.latchMode = .latched)
    ∧ t.feeds.admission = [] ∧ t.feeds.budget = 8 ∧ t.feeds.pendingBudget = none
    ∧ (∀ u : UnitIx, t.rt.units[u] = UnitRecord.reset)
    ∧ (∀ k : LineIx, t.rt.lines[k].state = .idle ∧ t.rt.lines[k].quietOwed = true ∧ t.rt.lines[k].fifo = []
        ∧ t.rt.lines[k].txn = none ∧ t.rt.lines[k].seqCounter = 0 ∧ t.rt.lines[k].waitList = []
        ∧ t.rt.lines[k].slot = .free ∧ t.rt.lines[k].strays = 0 ∧ t.rt.lines[k].damaged = 0
        ∧ t.rt.lines[k].overruns = 0 ∧ t.rt.lines[k].faults = 0 ∧ t.rt.lines[k].latched.divisor = 4)
    ∧ t.rt.settings.minGap = 8 ∧ t.rt.settings.shedTime = 400 ∧ t.rt.settings.settle = 200
    ∧ t.rt.settings.derate = 230 ∧ t.rt.settings.guard = 8 ∧ t.rt.settings.retryLimit = 3
    ∧ t.rt.mode = .stopped ∧ t.rt.queue = [] ∧ t.rt.read = none ∧ t.port.write = none
    ∧ t.port.areaLow = 0 ∧ t.port.areaHigh = 0 ∧ t.port.base = 0 ∧ t.port.change = 0 ∧ t.port.events = 0
    ∧ t.controlValue = 0 ∧ t.stateValue = 0 ∧ t.irqAsserted = false

/-- R25, R49, R101, R122, R144, R171, R193, R206, R207: what a controller restart keeps and clears, and a link reset, which
is a restart with KEEP_FEEDS set; the character or break on a line's wire is completed (when DE_n is then released: log 8).
That the answer fields of a feed kept ON are cleared is the model's choice (log 19). -/
def Obligations.RestartKeepsAndClears : Prop :=
  ∀ (c : Instr) (v : Word) (s : State), c = .restart v ∨ c = .linkReset ∧ v.getLsbD 3 = true →
    ∃ t, exec c s = .next t
      ∧ t.clock = s.clock ∧ t.monitor = s.monitor ∧ t.pending = s.pending
      ∧ t.port.areaLow = s.port.areaLow ∧ t.port.areaHigh = s.port.areaHigh ∧ t.port.base = s.port.base
      ∧ t.rt.mode = .stopped ∧ t.port.events = 0 ∧ t.port.change = 0 ∧ t.controlValue = 0 ∧ t.irqAsserted = false
      ∧ t.rt.settings = Settings.default ∧ t.rt.queue = [] ∧ t.rt.fetchList = [] ∧ t.rt.read = none
      ∧ t.port.write = none ∧ t.port.job = none ∧ t.port.sweepWanted = false ∧ t.port.headerWanted = false
      ∧ t.port.adoptedEdition = 0 ∧ (∀ u : UnitIx, t.port.adoptedUnit[u] = 0)
      ∧ (∀ f : FeedIx, t.port.adoptedFeed[f] = 0)
      ∧ (∀ i : ImageIx, t.rt.directory[i] = DirectoryEntry.zero ∧ t.rt.suspect[i] = none)
      ∧ (∀ u : UnitIx, t.rt.units[u] = UnitRecord.reset)
      ∧ (∀ k : LineIx,
          (t.rt.lines[k].state
              = if s.monitor.supply = .gap ∨ s.monitor.supply = .settling then .stopped else .idle)
          ∧ t.rt.lines[k].quietOwed = true ∧ t.rt.lines[k].seqCounter = 0 ∧ t.rt.lines[k].txn = none
          ∧ t.rt.lines[k].waitList = [] ∧ t.rt.lines[k].slot = .free ∧ t.rt.lines[k].strays = 0
          ∧ (s.rt.lines[k]).CutsTo t.rt.lines[k])
      ∧ t.feeds.admission = [] ∧ t.feeds.budget = 8 ∧ t.feeds.pendingBudget = none
      ∧ (∀ f : FeedIx,
          if v.getLsbD 3 = true ∧ s.feeds.feed[f].state = .on then
            t.feeds.feed[f] =
              { s.feeds.feed[f] with
                offered := FeedConfig.reset, mainOn := false, answerTag := 0, answerCode := .blank }
          else t.feeds.feed[f] = FeedRecord.reset)

/-! ### Time -/

/-- R1, R2, R10, R12, R15, R50, R85, R89, R90, R174, R181: a tick leaves the prescaler at 0, counts the seconds divider and
every timer that runs, and its comparisons find due exactly the steps whose timers stand at their values. That a step
found due is taken by its own command after the tick, and that the divider passes to 0 and the uptime goes up with
UPTIME_SECOND, is the model's split (log 3). -/
def Obligations.TicksCountTime : Prop :=
  (∀ (lineOk : Bool) (fault : BitVec 16) (s : State), s.due = [] →
    ∃ t, exec (.tick lineOk fault) s = .next t ∧ t.clock.prescaler = 0 ∧ t.clock.uptime = s.clock.uptime
      ∧ (if s.clock.seconds + 1 = 4000 then Due.uptimeSecond ∈ t.due ∧ t.clock.seconds = s.clock.seconds
          else Due.uptimeSecond ∉ t.due ∧ t.clock.seconds = s.clock.seconds + 1)
      ∧ t.pending = s.pending ∧ t.rt.mode = s.rt.mode ∧ t.rt.settings = s.rt.settings
      ∧ t.rt.directory = s.rt.directory ∧ t.port.change = s.port.change
      ∧ (s.monitor.filter.accepted = some lineOk →
          (∀ f : FeedIx, s.feeds.feed[f].faultActive = false ∧ fault.getLsbD f.val = true) →
          (∀ f : FeedIx, t.feeds.feed[f] = { s.feeds.feed[f] with
              faultDiffering := false
              timer := if s.feeds.feed[f].state = .softstart ∨ s.feeds.feed[f].state = .tripped then
                  min (s.feeds.feed[f].timer + 1) 65535 else s.feeds.feed[f].timer
              proving := if s.feeds.feed[f].state = .on then min (s.feeds.feed[f].proving + 1) 65535
                else s.feeds.feed[f].proving })
          ∧ t.feeds = { s.feeds with feed := t.feeds.feed }
          ∧ (∀ u : UnitIx, t.rt.units[u] = { s.rt.units[u] with
              bootTimer := s.rt.units[u].bootTimer.map fun n => min (n + 1) 65535
              attendTimer := s.rt.units[u].attendTimer.map fun n => min (n + 1) 65535
              pollTimer := if s.rt.busy u = true then s.rt.units[u].pollTimer
                else s.rt.units[u].pollTimer.map fun n => min (n + 1) 65535 })
          ∧ (∀ k : LineIx, t.rt.lines[k] = (s.rt.lines[k]).elapse (4096 - s.clock.prescaler))
          ∧ t.rt.read = s.rt.read.map (fun b => { b with timer := b.timer + 1 })
          ∧ t.port = { s.port with
              sweepTimer := if s.rt.mode = .running ∧ s.port.sweepTimerOn = true ∧ s.port.sweeping = false then
                  s.port.sweepTimer + 1 else s.port.sweepTimer
              write := s.port.write.map fun w => { w with timer := w.timer + 1 } }))
  ∧ (∀ (lineOk : Bool) (fault : BitVec 16) (s : State),
    ∃ t, exec (.tick lineOk fault) s = .next t
      ∧ (Due.gapDeclared ∈ t.due ↔ t.monitor.supply = .pending ∧ t.rt.settings.minGap ≤ t.monitor.gapCounter)
      ∧ (Due.shedCommand ∈ t.due ↔ t.monitor.supply = .gap ∧ t.monitor.shed = false
          ∧ t.rt.settings.shedTime ≤ t.monitor.gapCounter)
      ∧ (Due.settlingEnd ∈ t.due ↔ t.monitor.supply = .settling ∧ t.rt.settings.settle ≤ t.monitor.settleTimer)
      ∧ (∀ f : FeedIx,
          (Due.mainSwitchOn f ∈ t.due ↔ t.feeds.feed[f].state = .softstart ∧ t.feeds.feed[f].mainOn = false
            ∧ t.feeds.feed[f].timer = t.feeds.feed[f].precharge)
          ∧ (Due.feedReachedOn f ∈ t.due ↔ t.feeds.feed[f].state = .softstart
            ∧ t.feeds.feed[f].timer = t.feeds.feed[f].settle)
          ∧ (Due.cooldownEnd f ∈ t.due ↔ t.feeds.feed[f].state = .tripped
            ∧ t.feeds.feed[f].cooldown ≤ t.feeds.feed[f].timer ∧ t.feeds.feed[f].faultActive = false)
          ∧ (Due.provingTimeReached f ∈ t.due ↔ t.feeds.feed[f].state = .on
            ∧ t.rt.settings.provingTime ≤ t.feeds.feed[f].proving ∧ t.feeds.feed[f].tripCount ≠ 0))
      ∧ (∀ u : UnitIx,
          (Due.bootTimeout u ∈ t.due ↔ (t.rt.units[u].run = .probing ∨ t.rt.units[u].run = .attending)
            ∧ t.rt.units[u].bootTimer = some t.rt.units[u].config.bootTimeout)
          ∧ (Due.attendTimerExpiry u ∈ t.due ↔ (t.rt.units[u].run = .probing ∨ t.rt.units[u].run = .attending)
            ∧ ∃ n, t.rt.units[u].attendTimer = some n ∧ t.rt.settings.attendInterval ≤ n)
          ∧ (Due.pollTimerExpiry u ∈ t.due ↔ (t.rt.units[u].run = .running ∨ t.rt.units[u].run = .held)
            ∧ t.rt.busy u = false ∧ ∃ n, t.rt.units[u].pollTimer = some n ∧ t.rt.settings.pollInterval ≤ n))
      ∧ (Due.sweepTimerExpiry ∈ t.due ↔ t.rt.mode = .running ∧ t.port.sweepTimerOn = true ∧ t.port.sweeping = false
          ∧ t.rt.settings.sweepInterval ≤ t.port.sweepTimer)
      ∧ (Due.completionTimeout .read ∈ t.due ↔ ∃ b, t.rt.read = some b ∧ b.live = true ∧ 4 ≤ b.timer)
      ∧ (Due.completionTimeout .write ∈ t.due ↔ ∃ w, t.port.write = some w ∧ w.live = true ∧ 4 ≤ w.timer))
  ∧ ∀ s : State, Due.uptimeSecond ∈ s.due → s.clock.seconds = 3999 →
    exec .uptimeSecond s = .next
      { s with
        due := s.due.erase .uptimeSecond
        clock := { s.clock with
          seconds := 0
          uptime := if s.clock.uptime = 4294967295#32 then 0 else BitVec.ofNat 32 (s.clock.uptime.toNat + 1) } }

/-! ### The Supply Monitor -/

/-- R3, R4, R87: what the LINE_OK filter and a FAULT filter do with one sample. -/
def Obligations.FiltersTakeASample : Prop :=
  (∀ (level a : Bool) (x : SupplyFilter), x.accepted = some a →
    (level = a → x.sample level = ({ x with differing := false }, none))
    ∧ (level ≠ a → x.differing = false → x.sample level = ({ x with differing := true }, none))
    ∧ (level ≠ a → x.differing = true →
        x.sample level
          = ({ x with accepted := some level, differing := false },
              some (if level = true then .back else .loss))))
  ∧ (∀ (level : Bool) (x : SupplyFilter), x.accepted = none →
    (x.candidate = some level →
      x.sample level = ({ x with accepted := some level, differing := false }, some (.initial level)))
    ∧ (x.candidate ≠ some level → x.sample level = ({ x with candidate := some level }, none)))
  ∧ (∀ (low : Bool) (x : FeedRecord),
    (low = x.faultActive → x.sample (!low) = { x with faultDiffering := false })
    ∧ (low ≠ x.faultActive → x.faultDiffering = false → x.sample (!low) = { x with faultDiffering := true })
    ∧ (low ≠ x.faultActive → x.faultDiffering = true →
        x.sample (!low) = { x with faultActive := low, faultDiffering := false }))

/-- R4, R6, R8, R9, R11, R13, R14, R83: what a tick does to the supply state, its counter, its timer and its capture, by
the level the filter accepts on it, the first one accepted in STARTUP included; and with no accepted change the timers of
the state advance. That the state after the tick stands before the step its comparison finds due is the model's split
(log 3), and the uptime that a declaration on a second's last tick takes is log 5's. -/
def Obligations.TickMovesTheSupplyState : Prop :=
  ∀ (lineOk : Bool) (fault : BitVec 16) (s : State), s.due = [] →
    ∃ t, exec (.tick lineOk fault) s = .next t
      ∧ (∀ a, s.monitor.filter.accepted = some a → lineOk ≠ a → s.monitor.filter.differing = true →
          (s.monitor.supply = .up → lineOk = false →
            t.monitor = { s.monitor with
              supply := .pending, gapCounter := 0
              filter := { s.monitor.filter with accepted := some false, differing := false } })
          ∧ (s.monitor.supply = .pending → lineOk = true →
            t.monitor = { s.monitor with
              supply := .up, gapCounter := 0, flickers := min (s.monitor.flickers + 1) 65535
              filter := { s.monitor.filter with accepted := some true, differing := false } })
          ∧ (s.monitor.supply = .gap → lineOk = true →
            t.monitor = { s.monitor with
              supply := .settling, gapCounter := min (s.monitor.gapCounter + 1) 65535, settleTimer := 0
              capture := some
                { duration := min (s.monitor.gapCounter + 1) 65535
                  overRange := decide (65535 ≤ s.monitor.gapCounter + 1) }
              filter := { s.monitor.filter with accepted := some true, differing := false } })
          ∧ (s.monitor.supply = .settling → lineOk = false →
            t.monitor = { s.monitor with
              supply := .gap, gapCounter := min (s.monitor.gapCounter + 1) 65535, capture := none, merged := true
              settleTimer := min (s.monitor.settleTimer + 1) 65535
              filter := { s.monitor.filter with accepted := some false, differing := false } }))
      ∧ (∀ a, s.monitor.filter.accepted = some a → lineOk = a ∨ s.monitor.filter.differing = false →
          t.monitor = { s.monitor with
            gapCounter := if s.monitor.supply = .startup ∨ s.monitor.supply = .up then s.monitor.gapCounter
              else min (s.monitor.gapCounter + 1) 65535
            settleTimer := if s.monitor.supply = .settling then min (s.monitor.settleTimer + 1) 65535
              else s.monitor.settleTimer
            filter := { s.monitor.filter with differing := decide (lineOk ≠ a) } })
      ∧ (s.monitor.filter.accepted = none → s.monitor.supply = .startup →
          (s.monitor.filter.candidate ≠ some lineOk →
            t.monitor = { s.monitor with filter := { s.monitor.filter with candidate := some lineOk } })
          ∧ (s.monitor.filter.candidate = some true → lineOk = true →
            t.monitor = { s.monitor with
              supply := .up, gapCounter := 0
              filter := { s.monitor.filter with accepted := some true, differing := false } }
            ∧ ((s.feeds.sampleAll fault).tripping = [] →
                t.feeds = (s.feeds.sampleAll fault).consider true ∧ t.port.events = s.port.events))
          ∧ (s.monitor.filter.candidate = some false → lineOk = false →
            t.monitor = { s.monitor with
              supply := .gap, gapCounter := 65535, merged := false, shed := false
              declaredAt := if s.clock.seconds + 1 = 4000 then s.clock.uptime + 1 else s.clock.uptime
              filter := { s.monitor.filter with accepted := some false, differing := false } }
            ∧ t.port.events &&& 1 = s.port.events &&& 1
            ∧ ((s.feeds.sampleAll fault).tripping = [] → ∀ u : UnitIx, t.rt.units[u].run =
                if s.rt.units[u].run = .unmanaged then .unmanaged else .riding)
            ∧ (∀ k : LineIx, (t.rt.lines[k]).Stopped)
            ∧ (∀ f : FeedIx, t.feeds.feed[f].state ≠ .softstart)))

/-- R10, R30, R32, R55, R84, R91, R120, R190: a gap declaration. A pending budget takes force with the soft starts cut,
and hands the header status be it equal to the value before. The character or break on a line's wire is completed (when
DE_n is then released: log 8), and its frame in assembly is dropped uncounted (that of an abandoned attempt: log 38);
the uptime recorded while a second's end is due is log 5's. -/
def Obligations.GapDeclaration : Prop :=
  ∀ s : State, Due.gapDeclared ∈ s.due → s.monitor.supply = .pending →
    ∃ t, exec .gapDeclared s = .next t
      ∧ t.monitor = { s.monitor with
          supply := .gap, merged := false, shed := false
          declaredAt := State.uptimeNow { s with due := s.due.erase .gapDeclared } }
      ∧ t.port = { s.port with events := s.port.events ||| 1 } ∧ t.clock = s.clock ∧ t.pending = s.pending
      ∧ t.due = s.due.erase .gapDeclared
      ∧ t.rt.mode = s.rt.mode ∧ t.rt.settings = s.rt.settings ∧ t.rt.directory = s.rt.directory
      ∧ t.rt.suspect = s.rt.suspect
      ∧ (∀ u : UnitIx,
          if s.rt.units[u].run = .unmanaged ∨ s.rt.units[u].run = .riding then t.rt.units[u] = s.rt.units[u]
          else
            t.rt.units[u].run = .riding ∧ t.rt.units[u].bootTimer = none ∧ t.rt.units[u].attendTimer = none
              ∧ t.rt.units[u].pollTimer = none
              ∧ t.rt.units[u].probePending = s.rt.units[u].probePending
              ∧ t.rt.units[u].runClass = s.rt.units[u].runClass
              ∧ t.rt.units[u].context = s.rt.units[u].context ∧ t.rt.units[u].contextSeq = s.rt.units[u].contextSeq
              ∧ t.rt.units[u].editPending = s.rt.units[u].editPending
              ∧ (s.rt.units[u].run = .loading ∨ s.rt.units[u].run = .verifying →
                  t.rt.units[u].imageValid = false ∧ t.rt.units[u].forceCold = true)
              ∧ (s.rt.units[u].run = .failed → t.rt.units[u].cause = .blank)
              ∧ (∀ q, s.rt.units[u].inFlight = some q →
                  if q.request = .contextEdit ∨ q.request = .releaseDoor then
                    t.rt.units[u].inFlight = none ∧ t.rt.units[u].answerTag = q.tag
                      ∧ t.rt.units[u].answerCode = .cut
                  else t.rt.units[u].inFlight = some q))
      ∧ (∀ k : LineIx, (t.rt.lines[k]).Stopped ∧ t.rt.lines[k].fifo = []
          ∧ t.rt.lines[k].strays = min (s.rt.lines[k].strays + (s.rt.lines[k].fifo.length
              + s.rt.lines[k].shift.toList.length)) 65535
          ∧ t.rt.lines[k].damaged = s.rt.lines[k].damaged ∧ t.rt.lines[k].seqCounter = s.rt.lines[k].seqCounter
          ∧ (s.rt.lines[k]).CutsTo t.rt.lines[k] ∧ t.rt.lines[k].receiving = none)
      ∧ t.rt.fetchList = []
      ∧ (∀ f : FeedIx,
          t.feeds.feed[f] =
            if s.feeds.feed[f].state = .softstart then { s.feeds.feed[f] with state := .shed, mainOn := false }
            else s.feeds.feed[f])
      ∧ t.feeds.admission = s.feeds.admission
      ∧ t.feeds.budget = s.feeds.pendingBudget.getD s.feeds.budget ∧ t.feeds.pendingBudget = none
      ∧ (s.feeds.pendingBudget.isSome = true → s.rt.mode ≠ .stopped → Item.headerStatus ∈ t.rt.queue)

/-- R12, R92: the shed command moves every feed in ON to SHED, its MAIN_n off, its timers stopped and its status item
queued, and sets the shed flag; no run, no mark and no event changes. -/
def Obligations.ShedCommandSheds : Prop :=
  ∀ s : State, Due.shedCommand ∈ s.due → s.monitor.supply = .gap → s.monitor.shed = false →
    ∃ t, exec .shedCommand s = .next t ∧ t.monitor = { s.monitor with shed := true }
      ∧ (∀ f : FeedIx,
          t.feeds.feed[f] =
            if s.feeds.feed[f].state = .on then { s.feeds.feed[f] with state := .shed } else s.feeds.feed[f])
      ∧ (∀ f : FeedIx, s.feeds.feed[f].state = .on →
          (t.feeds.feed[f]).mainOut = false ∧ (t.feeds.feed[f]).preOut = false
            ∧ (t.feeds.feed[f]).advance = t.feeds.feed[f]
            ∧ (s.rt.mode ≠ .stopped → Item.feedStatus f ∈ t.rt.queue))
      ∧ t.feeds.admission = s.feeds.admission ∧ t.feeds.budget = s.feeds.budget
      ∧ t.feeds.pendingBudget = s.feeds.pendingBudget
      ∧ s.rt.SameButQueue t.rt ∧ t.port = s.port ∧ t.clock = s.clock ∧ t.pending = s.pending
      ∧ t.due = s.due.erase .shedCommand

/-- R15, R16, R18, R19, R22, R23, R29, R52, R56, R57, R93, R118: the end of settling: the gap record with its three counts,
the class of every unit in RIDING, and where each goes: WAIT_FEED where its feed is not ON, and otherwise FAILED where its
latch fails, PROBING with its probe pending, CHECKING where it rode through and its image entry is as it was, ATTENDING
otherwise. -/
def Obligations.SettlingEnds : Prop :=
  ∀ (c : Capture) (s : State), Due.settlingEnd ∈ s.due → s.monitor.supply = .settling → s.monitor.capture = some c →
    s.feeds.ListsTheWaiting →
    let counted := fun x : GapClass => ((List.finRange 32).filter fun u : UnitIx =>
      decide (s.rt.units[u].run = .riding) && !s.rt.units[u].probePending
        && decide (classify s.rt.settings c s.rt.units[u] = x)).length
    ∃ t, exec .settlingEnd s = .next t
      ∧ t.monitor = { s.monitor with
          supply := .up, gapCounter := 0, capture := none
          gapList := s.monitor.gapList.drop (s.monitor.gapList.length - 7) ++
            [{ duration := c.duration, overRange := c.overRange, merged := s.monitor.merged, shed := s.monitor.shed
               noneCount := counted .rode, warmCount := counted .warm, coldCount := counted .cold
               declaredAt := s.monitor.declaredAt }] }
      ∧ t.port = { s.port with events := s.port.events ||| 2 } ∧ t.clock = s.clock ∧ t.pending = s.pending
      ∧ t.due = s.due.erase .settlingEnd
      ∧ t.rt.mode = s.rt.mode ∧ t.rt.settings = s.rt.settings ∧ t.rt.directory = s.rt.directory
      ∧ (s.rt.mode ≠ .stopped → Item.gapList ∈ t.rt.queue)
      ∧ (∀ u : UnitIx, s.rt.units[u].run ≠ .riding → t.rt.units[u].run = s.rt.units[u].run)
      ∧ (∀ u : UnitIx, s.rt.units[u].run = .riding →
          (s.rt.mode ≠ .stopped → Item.unitResult u ∈ t.rt.queue)
          ∧ (s.rt.units[u].probePending = false →
              t.rt.units[u].lastClass = some (classify s.rt.settings c s.rt.units[u]))
          ∧ (s.rt.units[u].probePending = true → t.rt.units[u].lastClass = s.rt.units[u].lastClass)
          ∧ (s.feeds.feed[s.rt.units[u].config.feed].state ≠ .on →
              t.rt.units[u].run = .waitFeed
              ∧ (s.rt.units[u].probePending = false →
                  t.rt.units[u].runClass = classify s.rt.settings c s.rt.units[u]
                    ∧ t.rt.units[u].origin = .classified)
              ∧ (s.rt.units[u].probePending = true → t.rt.units[u].runClass = s.rt.units[u].runClass))
          ∧ (s.feeds.feed[s.rt.units[u].config.feed].state = .on →
              (s.rt.unitLatchable u = false → t.rt.units[u].run = .failed ∧ t.rt.units[u].cause = .imageChanged)
              ∧ (s.rt.unitLatchable u = true →
                  t.rt.units[u].image
                      = latchedImage s.rt.units[u].config.image s.rt.directory[s.rt.units[u].config.image]
                  ∧ t.rt.units[u].verdicts = 0 ∧ t.rt.units[u].aloneMark = false
                  ∧ (s.rt.units[u].probePending = true →
                      t.rt.units[u].run = .probing ∧ t.rt.units[u].bootTimer = some 0)
                  ∧ (s.rt.units[u].probePending = false →
                      t.rt.units[u].runClass =
                          (if s.rt.sameImage u = true then classify s.rt.settings c s.rt.units[u] else .cold)
                      ∧ (t.rt.units[u].runClass = .rode → t.rt.units[u].run = .checking)
                      ∧ (t.rt.units[u].runClass ≠ .rode →
                          t.rt.units[u].run = .attending ∧ t.rt.units[u].bootTimer = some 0)))))
      ∧ (∀ k : LineIx, s.rt.lines[k].state = .stopped →
          t.rt.lines[k].state = .idle ∧ t.rt.lines[k].quietOwed = true)
      ∧ (∀ f : FeedIx, s.feeds.feed[f].state = .shed →
          t.feeds.feed[f].state = .waiting ∨ t.feeds.feed[f].state = .softstart)
      ∧ (∀ f : FeedIx, s.feeds.feed[f].state ≠ .shed → s.feeds.feed[f].state ≠ .waiting →
          t.feeds.feed[f] = s.feeds.feed[f])

/-- R21, R22: the thresholds are floors within 16 bits with R at most H, each unit gets the class of the first row that
matches, and one whose retention is shorter than its ride-through is never WARM. -/
def Obligations.GapClasses : Prop :=
  ∀ (x : Settings) (c : Capture) (u : UnitRecord),
    let s := c.duration + x.guard
    let r := u.config.ride * x.derate / 256
    let h := if u.config.retain * x.derate / 256 < r then r else u.config.retain * x.derate / 256
    rideThreshold x u.config = r ∧ holdThreshold x u.config = h ∧ r ≤ h
      ∧ (u.config.ride ≤ 65535 → u.config.retain ≤ 65535 → x.derate ≤ 256 →
          u.config.ride * x.derate ≤ 16776960 ∧ u.config.retain * x.derate ≤ 16776960 ∧ h ≤ 65535)
      ∧ (c.duration ≤ 65535 → x.guard ≤ 255 → s ≤ 65790)
      ∧ (u.forceCold = true ∨ u.imageValid = false ∨ c.overRange = true → classify x c u = .cold)
      ∧ (u.forceCold = false → u.imageValid = true → c.overRange = false →
          (s ≤ r → classify x c u = .rode) ∧ (r < s → s ≤ h → classify x c u = .warm)
            ∧ (h < s → classify x c u = .cold))
      ∧ (u.config.retain ≤ u.config.ride → classify x c u ≠ .warm)

/-! ### Feeds -/

/-- R82, R85: with the supply UP, a consideration admits one candidate after another, each the earliest of the highest
offered priority, until the list is empty or the candidate does not fit; those admitted are latched and start, no other
feed changes, and the sum stays within the budget. With the supply not UP nothing is admitted. -/
def Obligations.AdmissionIsConsidered : Prop :=
  (∀ (fc : FeedControl) (l : List FeedIx) (f : FeedIx), fc.candidateOf l = some f →
    f ∈ l ∧ ∀ g ∈ l, fc.feed[g].offered.priority ≤ fc.feed[f].offered.priority
      ∧ (fc.feed[g].offered.priority = fc.feed[f].offered.priority → l.idxOf f ≤ l.idxOf g))
  ∧ (∀ fc : FeedControl, fc.consider false = fc ∧ (fc.admission = [] → fc.consider true = fc)
    ∧ ∀ f, fc.candidateOf fc.admission = some f →
        fc.consider true =
          if fc.shares + min fc.feed[f].offered.weight fc.budget ≤ fc.budget then (fc.admitFeed f).consider true else fc)
  ∧ (∀ fc : FeedControl, fc.ListsTheWaiting →
    let t := fc.consider true
    t.ListsTheWaiting ∧ t.budget = fc.budget ∧ t.pendingBudget = fc.pendingBudget
      ∧ (t.admission = [] ∨ ∃ f, t.candidateOf t.admission = some f ∧ t.budget < t.shares + t.takenWeight f)
      ∧ (fc.shares ≤ fc.budget → t.shares ≤ t.budget)
      ∧ (∀ f, f ∈ fc.admission → f ∉ t.admission →
          t.feed[f] = { fc.feed[f] with
            state := .softstart, mainOn := false, timer := 0, weight := min fc.feed[f].offered.weight fc.budget
            precharge := fc.feed[f].offered.precharge, settle := fc.feed[f].offered.settle })
      ∧ (∀ f, f ∉ fc.admission ∨ f ∈ t.admission → t.feed[f] = fc.feed[f]))

/-- R85: at the latched precharge MAIN_n goes on while PRE_n stays on; nothing else changes. -/
def Obligations.MainSwitchGoesOn : Prop :=
  ∀ (f : FeedIx) (s : State), Due.mainSwitchOn f ∈ s.due → s.feeds.feed[f].state = .softstart →
    s.feeds.feed[f].mainOn = false → s.feeds.feed[f].timer = s.feeds.feed[f].precharge →
    ∃ t, exec (.mainSwitchOn f) s = .next t
      ∧ t = { s with
          due := s.due.erase (.mainSwitchOn f)
          feeds := { s.feeds with feed := s.feeds.feed.set f { s.feeds.feed[f] with mainOn := true } } }
      ∧ (t.feeds.feed[f]).mainOut = true ∧ (t.feeds.feed[f]).preOut = true

/-- R29, R52, R56, R58, R82, R84, R85, R86, R149, R169, R190: at the latched settle the feed enters ON with PRE_n off, each
of its units in WAIT_FEED proceeds by the rows of R56 after the latch of its run start, and the feed's weight is out of the
sum when a pending budget and admission are considered; a pending budget that takes force hands the header status, be it
equal to the value before. -/
def Obligations.FeedReachesOn : Prop :=
  (∀ (f : FeedIx) (s : State), Due.feedReachedOn f ∈ s.due → s.feeds.feed[f].state = .softstart →
    s.feeds.feed[f].timer = s.feeds.feed[f].settle → s.feeds.ListsTheWaiting →
    ∃ t, exec (.feedReachedOn f) s = .next t
      ∧ t.feeds.feed[f] = { s.feeds.feed[f] with state := .on, mainOn := false, proving := 0 }
      ∧ (t.feeds.feed[f]).mainOut = true ∧ (t.feeds.feed[f]).preOut = false
      ∧ t.feeds =
          ({ s.feeds with feed := s.feeds.feed.set f { s.feeds.feed[f] with state := .on, mainOn := false, proving := 0 } } :
            FeedControl).settleBudget.consider (decide (s.monitor.supply = .up))
      ∧ (∀ u : UnitIx, s.rt.units[u].run = .waitFeed → s.rt.units[u].config.feed = f →
          (s.rt.unitLatchable u = false → t.rt.units[u].run = .failed ∧ t.rt.units[u].cause = .imageChanged)
          ∧ (s.rt.unitLatchable u = true →
              t.rt.units[u].image
                  = latchedImage s.rt.units[u].config.image s.rt.directory[s.rt.units[u].config.image]
              ∧ t.rt.units[u].verdicts = 0 ∧ t.rt.units[u].aloneMark = false
              ∧ t.rt.units[u].runClass =
                  (if s.rt.units[u].imageValid = true ∧ s.rt.sameImage u = false then .cold
                    else s.rt.units[u].runClass)
              ∧ (s.rt.units[u].probePending = true →
                  t.rt.units[u].run = .probing ∧ t.rt.units[u].bootTimer = some 0)
              ∧ (s.rt.units[u].probePending = false → t.rt.units[u].runClass = .rode → t.rt.units[u].run = .checking)
              ∧ (s.rt.units[u].probePending = false → t.rt.units[u].runClass ≠ .rode →
                  t.rt.units[u].run = .attending ∧ t.rt.units[u].bootTimer = some 0)))
      ∧ (∀ u : UnitIx, s.rt.units[u].run ≠ .waitFeed ∨ s.rt.units[u].config.feed ≠ f →
          t.rt.units[u].run = s.rt.units[u].run ∧ t.rt.units[u].context = s.rt.units[u].context)
      ∧ (∀ g : FeedIx, g ≠ f → s.feeds.feed[g].state ≠ .waiting → t.feeds.feed[g] = s.feeds.feed[g])
      ∧ (s.monitor.supply ≠ .up → t.feeds.admission = s.feeds.admission)
      ∧ (s.feeds.pendingBudget.isSome = true → (∀ g : FeedIx, g ≠ f → s.feeds.feed[g].state ≠ .softstart) →
          s.rt.mode ≠ .stopped → Item.headerStatus ∈ t.rt.queue)
      ∧ t.monitor = s.monitor ∧ t.clock = s.clock ∧ t.port = s.port ∧ t.pending = s.pending
      ∧ t.due = s.due.erase (.feedReachedOn f) ∧ t.rt.mode = s.rt.mode ∧ t.rt.settings = s.rt.settings)
  ∧ ∀ (u : UnitIx) (r : Runtime), r.unitLatchable u = true → (r.lines[r.units[u].config.line]).serves u = false →
    let w : Work :=
      if (r.proceed u).units[u].run = .checking then .status else .hello
    (r.proceed u).lines =
      r.lines.set r.units[u].config.line ((r.lines[r.units[u].config.line]).list u w)

/-- R81, R89: at the end of a cooldown the feed joins the admission list, or is locked off with FEED_EVENT where its trip
count has reached the latched limit. -/
def Obligations.CooldownEnds : Prop :=
  ∀ (f : FeedIx) (s : State), Due.cooldownEnd f ∈ s.due → s.feeds.feed[f].state = .tripped →
    s.feeds.feed[f].cooldown ≤ s.feeds.feed[f].timer → s.feeds.feed[f].faultActive = false →
    s.feeds.ListsTheWaiting →
    ∃ t, exec (.cooldownEnd f) s = .next t
      ∧ (s.feeds.feed[f].tripCount < s.feeds.feed[f].tripLimit →
          (t.feeds.feed[f].state = .waiting ∨ t.feeds.feed[f].state = .softstart) ∧ t.port = s.port
            ∧ (s.monitor.supply ≠ .up →
                t.feeds.feed[f].state = .waiting ∧ t.feeds.admission = s.feeds.admission ++ [f])
            ∧ ∀ g : FeedIx, g ≠ f → s.feeds.feed[g].state ≠ .waiting → t.feeds.feed[g] = s.feeds.feed[g])
      ∧ (s.feeds.feed[f].tripLimit ≤ s.feeds.feed[f].tripCount →
          t.feeds = { s.feeds with feed := s.feeds.feed.set f { s.feeds.feed[f] with state := .lockedOff } }
            ∧ t.port = { s.port with events := s.port.events ||| 4 })
      ∧ (s.rt.mode ≠ .stopped → Item.feedStatus f ∈ t.rt.queue)
      ∧ s.rt.SameButQueue t.rt ∧ t.monitor = s.monitor ∧ t.clock = s.clock ∧ t.pending = s.pending
      ∧ t.due = s.due.erase (.cooldownEnd f)

/-- R90: the trip count is cleared and the feed's status item is queued; nothing else changes. -/
def Obligations.ProvingTimeClearsTheTrips : Prop :=
  ∀ (f : FeedIx) (s : State), Due.provingTimeReached f ∈ s.due → s.feeds.feed[f].state = .on →
    1 ≤ s.feeds.feed[f].tripCount → s.feeds.feed[f].tripCount ≤ 255 →
    exec (.provingTimeReached f) s = .next
      { s with
        due := s.due.erase (.provingTimeReached f)
        feeds := { s.feeds with feed := s.feeds.feed.set f { s.feeds.feed[f] with tripCount := 0 } }
        rt := s.rt.enqueue (.feedStatus f) }

/-- R59, R86, R88, R94: a feed in SOFTSTART or ON whose fault is accepted as active on a tick trips on that tick, and its
managed units take the left ON notice. The uptime of a trip on the last tick of a second is log 5's. -/
def Obligations.FaultedFeedTrips : Prop :=
  ∀ (lineOk : Bool) (fault : BitVec 16) (f : FeedIx) (s : State), s.due = [] → s.feeds.ListsTheWaiting →
    s.feeds.feed[f].state = .softstart ∨ s.feeds.feed[f].state = .on →
    (if fault.getLsbD f.val = true then s.feeds.feed[f].faultActive = true ∧ s.feeds.feed[f].faultDiffering = false
      else s.feeds.feed[f].faultActive = true ∨ s.feeds.feed[f].faultDiffering = true) →
    ∃ t, exec (.tick lineOk fault) s = .next t
      ∧ t.feeds.feed[f].state = (if s.feeds.feed[f].offered.latchMode = .auto then .tripped else .lockedOff)
      ∧ (t.feeds.feed[f]).mainOut = false ∧ (t.feeds.feed[f]).preOut = false
      ∧ t.feeds.feed[f].tripCount = min (s.feeds.feed[f].tripCount + 1) 255
      ∧ t.feeds.feed[f].lastTrip
          = (if s.clock.seconds + 1 = 4000 then s.clock.uptime + 1 else s.clock.uptime)
      ∧ t.feeds.feed[f].cooldown = s.feeds.feed[f].offered.cooldown
      ∧ t.feeds.feed[f].tripLimit = s.feeds.feed[f].offered.tripLimit
      ∧ t.feeds.feed[f].latchMode = s.feeds.feed[f].offered.latchMode
      ∧ t.feeds.feed[f].timer = 0 ∧ t.feeds.feed[f].weight = s.feeds.feed[f].weight
      ∧ t.port.events &&& 4 = 4 ∧ t.pending = s.pending
      ∧ (s.rt.mode ≠ .stopped → Item.feedStatus f ∈ t.rt.queue)
      ∧ (∀ u : UnitIx, s.rt.units[u].config.feed = f → s.rt.units[u].run ≠ .unmanaged →
          t.rt.units[u].forceCold = true
            ∧ (s.monitor.filter.accepted.isSome = true → s.rt.StepsOfItsGroup u →
                (s.rt.units[u]).LeftOn t.rt.units[u]))

/-- R59, R94, R95, R96, R97, R98: the answer of each feed request by the feed's state, and the state it leaves; an
undefined code is refused and changes nothing; the answer is written with the request's tag and the feed's status item
queued, and a FEED_OFF of a feed in SOFTSTART or ON gives its units the left ON notice. -/
def Obligations.FeedRequestAnswers : Prop :=
  (∀ (up : Bool) (f : FeedIx) (fc : FeedControl), fc.ListsTheWaiting →
    fc.take up f none = (fc, .refusedBad)
      ∧ (fc.feed[f].state = .off →
          (fc.take up f (some .on)).2 = .done
            ∧ (up = false → (fc.take up f (some .on)).1.admission = fc.admission ++ [f])
            ∧ ((fc.take up f (some .on)).1.feed[f].state = .waiting
              ∨ up = true ∧ (fc.take up f (some .on)).1.feed[f].state = .softstart))
      ∧ (fc.feed[f].state = .waiting ∨ fc.feed[f].state = .softstart ∨ fc.feed[f].state = .on →
          fc.take up f (some .on) = (fc, .done))
      ∧ (fc.feed[f].state = .shed ∨ fc.feed[f].state = .tripped ∨ fc.feed[f].state = .lockedOff →
          fc.take up f (some .on) = (fc, .refusedState))
      ∧ (fc.take up f (some .off)).2 = .done
      ∧ (fc.take up f (some .off)).1.feed[f] = { fc.feed[f] with state := .off, mainOn := false }
      ∧ f ∉ (fc.take up f (some .off)).1.admission
      ∧ (fc.feed[f].state ≠ .lockedOff → fc.take up f (some .clear) = (fc, .refusedState))
      ∧ (fc.feed[f].state = .lockedOff → fc.feed[f].faultActive = true →
          fc.take up f (some .clear) = (fc, .faultActive))
      ∧ (fc.feed[f].state = .lockedOff → fc.feed[f].faultActive = false →
          (fc.take up f (some .clear)).2 = .done
            ∧ (fc.take up f (some .clear)).1.feed[f].tripCount = 0
            ∧ ((fc.take up f (some .clear)).1.feed[f].state = .waiting
              ∨ up = true ∧ (fc.take up f (some .clear)).1.feed[f].state = .softstart)))
  ∧ ∀ (f : FeedIx) (q : Option FeedRequest) (tag : Byte) (s : State),
    let d := s.feeds.take (decide (s.monitor.supply = .up)) f q
    let t := s.feedRequest f q tag
    t.feeds = { d.1 with feed := d.1.feed.set f { d.1.feed[f] with answerTag := tag, answerCode := d.2 } }
      ∧ (s.rt.mode ≠ .stopped → Item.feedStatus f ∈ t.rt.queue)
      ∧ t.monitor = s.monitor ∧ t.clock = s.clock ∧ t.port = s.port ∧ t.due = s.due ∧ t.pending = s.pending
      ∧ (q ≠ some .off ∨ s.feeds.feed[f].state ≠ .softstart ∧ s.feeds.feed[f].state ≠ .on → s.rt.SameButQueue t.rt)
      ∧ (q = some .off → s.feeds.feed[f].state = .softstart ∨ s.feeds.feed[f].state = .on →
          ∀ u : UnitIx,
            (s.rt.units[u].config.feed = f → s.rt.units[u].run ≠ .unmanaged → s.rt.StepsOfItsGroup u →
              (s.rt.units[u]).LeftOn t.rt.units[u])
            ∧ (s.rt.units[u].run = .unmanaged → s.rt.StepsOfItsGroup u → t.rt.units[u].run = .unmanaged))

/-! ### Run timers -/

/-- R60, R71: a boot timeout is held while an attempt is outstanding; otherwise the unit is withdrawn and its run fails
with BOOT_TIMEOUT, an ENLIST or RELOAD in flight being answered FAILED. -/
def Obligations.BootTimeoutEnds : Prop :=
  ∀ (u : UnitIx) (s : State), Due.bootTimeout u ∈ s.due →
    s.rt.units[u].run = .probing ∨ s.rt.units[u].run = .attending →
    s.rt.units[u].bootTimer = some s.rt.units[u].config.bootTimeout →
    ((s.rt.lines[s.rt.units[u].config.line]).serves u = true →
      exec (.bootTimeout u) s = .next
        { s with
          due := s.due.erase (.bootTimeout u)
          rt := { s.rt with units := s.rt.units.set u { s.rt.units[u] with bootHeld := true } } })
    ∧ ((s.rt.lines[s.rt.units[u].config.line]).serves u = false →
      ∃ t, exec (.bootTimeout u) s = .next t
        ∧ t.rt.units[u].run = .failed ∧ t.rt.units[u].cause = .bootTimeout ∧ t.rt.units[u].probePending = false
        ∧ t.rt.units[u].bootTimer = none ∧ t.rt.units[u].attendTimer = none ∧ t.rt.units[u].pollTimer = none
        ∧ t.rt.units[u].context = s.rt.units[u].context ∧ t.rt.units[u].forceCold = s.rt.units[u].forceCold
        ∧ (t.rt.lines[s.rt.units[u].config.line]).waits u = false
        ∧ (∀ q, s.rt.units[u].inFlight = some q → (q.request = .enlist ∨ q.request = .reload) →
            t.rt.units[u].inFlight = none ∧ t.rt.units[u].answerTag = q.tag ∧ t.rt.units[u].answerCode = .failed)
        ∧ (s.rt.mode ≠ .stopped → Item.unitResult u ∈ t.rt.queue)
        ∧ (∀ v : UnitIx, v ≠ u → t.rt.units[v].run = s.rt.units[v].run)
        ∧ t.monitor = s.monitor ∧ t.feeds = s.feeds ∧ t.clock = s.clock ∧ t.port = s.port
        ∧ t.pending = s.pending ∧ t.due = s.due.erase (.bootTimeout u) ∧ t.rt.mode = s.rt.mode
        ∧ t.rt.settings = s.rt.settings)

/-- R60, R68, R135: an attend timer's expiry posts the next HELLO_ASK attempt, and a poll timer's expiry a poll, at the
tail of the unit's wait list; nothing else changes. -/
def Obligations.TimersPostWork : Prop :=
  ∀ (u : UnitIx) (s : State),
    let k := s.rt.units[u].config.line
    ((s.rt.lines[k]).waits u = false → (s.rt.lines[k]).serves u = false →
      (∀ n, Due.attendTimerExpiry u ∈ s.due → s.rt.units[u].run = .probing ∨ s.rt.units[u].run = .attending →
        s.rt.units[u].attendTimer = some (n + 1) →
        exec (.attendTimerExpiry u) s = .next
          { s with
            due := s.due.erase (.attendTimerExpiry u)
            rt := { s.rt with
              units := s.rt.units.set u { s.rt.units[u] with attendTimer := none }
              lines := s.rt.lines.set k
                { s.rt.lines[k] with waitList := s.rt.lines[k].waitList ++ [.single u .hello] } } })
      ∧ (∀ n, Due.pollTimerExpiry u ∈ s.due → s.rt.units[u].run = .running ∨ s.rt.units[u].run = .held →
        s.rt.units[u].pollTimer = some (n + 1) →
        exec (.pollTimerExpiry u) s = .next
          { s with
            due := s.due.erase (.pollTimerExpiry u)
            rt := { s.rt with
              lines := s.rt.lines.set k
                { s.rt.lines[k] with waitList := s.rt.lines[k].waitList ++ [.single u .poll] } } }))

/-! ### Bus accesses that fail -/

/-- R77, R163, R174, R203, R204: the failure of the outstanding read burst in RUNNING or during a start is an area fault:
the mode becomes AREA_FAULT with its event, the engine's job and flags end, no unit is left in LOADING, no group and no
fetch request is left, and the held queue keeps its items. In AREA_FAULT the failure of a recovery's header load raises the
event again and ends the recovery, the area base staying as latched and the mode as it is. A burst whose user has ended
fails without effect but that the path is free. -/
def Obligations.FailedReadIsAnAreaFault : Prop :=
  (∀ (c : Instr) (b : ReadBurst) (s : State),
    c = .busErrorCompletion .read
      ∨ c = .completionTimeout .read ∧ Due.completionTimeout .read ∈ s.due ∧ 4 ≤ b.timer →
    s.rt.read = some b → b.live = true → s.rt.mode = .running ∨ s.port.starting = true →
    ∃ t, exec c s = .next t ∧ t.rt.mode = .areaFault ∧ t.port.events = s.port.events ||| 8 ∧ t.port.starting = false
      ∧ t.rt.read = none ∧ t.rt.fetchList = [] ∧ t.port.job = none ∧ t.port.sweepWanted = false
      ∧ t.port.headerWanted = false ∧ t.port.sweepTimerOn = false ∧ t.port.startItems = s.port.startItems
      ∧ t.port.adoptedUnit = s.port.adoptedUnit ∧ t.port.adoptedFeed = s.port.adoptedFeed
      ∧ t.port.change = s.port.change ∧ t.port.base = s.port.base ∧ t.port.write = s.port.write
      ∧ (∀ u : UnitIx, s.rt.units[u].run = .loading →
          t.rt.units[u].run = .failed ∧ t.rt.units[u].cause = .area ∧ t.rt.units[u].imageValid = false)
      ∧ (∀ u : UnitIx, s.rt.units[u].run ≠ .loading → t.rt.units[u].run = s.rt.units[u].run)
      ∧ (∀ k : LineIx, (t.rt.lines[k]).groupRecord = none)
      ∧ (∃ l, t.rt.queue = s.rt.queue ++ l) ∧ t.rt.directory = s.rt.directory ∧ t.rt.settings = s.rt.settings
      ∧ t.monitor = s.monitor ∧ t.feeds = s.feeds ∧ t.clock = s.clock ∧ t.pending = s.pending)
  ∧ (∀ (c : Instr) (b : ReadBurst) (s : State),
    c = .busErrorCompletion .read
      ∨ c = .completionTimeout .read ∧ Due.completionTimeout .read ∈ s.due ∧ 4 ≤ b.timer →
    s.rt.read = some b → b.live = true → s.rt.mode = .areaFault → s.port.starting = false →
    b.user = .header → s.port.recovering = true →
    exec c s = .next
      { s with
        due := if c = .busErrorCompletion .read then s.due else s.due.erase (.completionTimeout .read)
        rt := { s.rt with read := none }
        port := { s.port with job := none, recovering := false, events := s.port.events ||| 8 } })
  ∧ ∀ (b : ReadBurst) (s : State), s.rt.read = some b → b.live = false →
    exec (.busErrorCompletion .read) s = .next { s with rt := { s.rt with read := none } }

/-- R174, R192, R203: the failure of the outstanding write in RUNNING is an area fault, and its item stands at the head
of the queue once. In AREA_FAULT the failure of a write still outstanding returns its item to the head and raises the event
again, and does nothing else. A write whose user has ended fails without effect but that the path is free. -/
def Obligations.FailedWriteReturnsItsItem : Prop :=
  ∀ (c : Instr) (w : ItemWrite) (s : State),
    c = .busErrorCompletion .write
      ∨ c = .completionTimeout .write ∧ Due.completionTimeout .write ∈ s.due ∧ 4 ≤ w.timer →
    s.port.write = some w →
    (w.live = true → s.rt.mode = .running →
      ∃ t l, exec c s = .next t ∧ t.rt.mode = .areaFault ∧ t.port.events = s.port.events ||| 8 ∧ t.port.write = none
        ∧ t.rt.queue = w.item :: s.rt.queue.erase w.item ++ l ∧ t.port.change = s.port.change
        ∧ t.monitor = s.monitor ∧ t.feeds = s.feeds ∧ t.clock = s.clock ∧ t.pending = s.pending)
    ∧ (w.live = true → s.rt.mode = .areaFault → s.port.starting = false →
      exec c s = .next
        { s with
          due := if c = .busErrorCompletion .write then s.due else s.due.erase (.completionTimeout .write)
          rt := { s.rt with queue := w.item :: s.rt.queue.erase w.item }
          port := { s.port with write := none, events := s.port.events ||| 8 } })
    ∧ (w.live = false →
      exec (.busErrorCompletion .write) s = .next { s with port := { s.port with write := none } })

/-! ### The Area Port -/

/-- R180, R181, R182, R187, R201: the sweep timer's expiry and a write to SWEEP in RUNNING want a sweep, which starts at
once on an idle engine with no header load wanted, and LOAD_HEADER written as 1 with RUN in RUNNING a header load, which
starts at once on an idle engine; out of RUNNING the two writes are dropped. -/
def Obligations.JobsAreWanted : Prop :=
  (∀ (c : Instr) (s : State),
    (∃ v, c = .sweep v)
      ∨ c = .sweepTimerExpiry ∧ Due.sweepTimerExpiry ∈ s.due ∧ s.port.sweepTimerOn = true
          ∧ 1 ≤ s.port.sweepTimer ∧ s.port.sweeping = false →
    (s.rt.mode = .running →
      ∃ t, exec c s = .next t
        ∧ t = { s with
            due := if c = .sweepTimerExpiry then s.due.erase .sweepTimerExpiry else s.due
            port := { s.port with
              sweepTimerOn := if c = .sweepTimerExpiry then false else s.port.sweepTimerOn
              job :=
                match s.port.job with
                | some j => some j
                | none => if s.port.headerWanted = true then some .header else some (.sweep 0)
              headerWanted := s.port.headerWanted && s.port.job.isSome
              sweepWanted := s.port.headerWanted || s.port.job.isSome } })
    ∧ (∀ v, c = .sweep v → s.rt.mode ≠ .running → exec c s = .next s))
  ∧ ∀ (v : Word) (s : State), v.getLsbD 0 = true → v.getLsbD 1 = true → v.getLsbD 2 = false →
    (s.rt.mode = .running →
      exec (.loadHeader v) s = .next
        { s with port := { s.port with
            ackExplicit := v.getLsbD 4, changeIe := v.getLsbD 5, stateIe := v.getLsbD 6
            headerWanted := s.port.job.isSome
            job :=
              match s.port.job with
              | some j => some j
              | none => some .header } })
    ∧ (s.rt.mode ≠ .running → ∃ t, exec (.loadHeader v) s = .next t ∧ t.port.headerWanted = s.port.headerWanted
        ∧ t.rt = s.rt ∧ t.feeds = s.feeds ∧ t.monitor = s.monitor)

/-- R165, R173, R175, R183, R188: which claimant's burst is sent on the free read path, and where it reads. -/
def Obligations.ReadBurstsAreShared : Prop :=
  (∀ s : State,
    (s.rt.read.isSome = true ∨ s.port.job = none ∧ s.fetchWaits = none → exec (.readBurstSend true) s = .next s)
    ∧ (∀ j, s.rt.read = none → s.port.job = some j → s.fetchWaits = none ∨ s.port.engineHadLast = false →
        exec (.readBurstSend true) s = .next
          { s with
            rt := { s.rt with read := some (jobBurst s.port.base j) }
            port := { s.port with engineHadLast := true } })
    ∧ (∀ q, s.rt.read = none → s.fetchWaits = some q → s.port.job = none ∨ s.port.engineHadLast = true →
        exec (.readBurstSend true) s = .next
          { s with
            rt := { s.rt with
              read := some { user := .fetch q true, live := true, timer := 0, address := q.address, length := q.length }
              fetchList := s.rt.fetchList.tail }
            port := { s.port with engineHadLast := false } })
    ∧ (∀ j, s.rt.read = none → s.port.job = some j → s.rt.mode = .running ∨ s.port.starting = true →
        ∃ t, exec (.readBurstSend false) s = .next t ∧ t.rt.mode = .areaFault ∧ t.port.events = s.port.events ||| 8))
  ∧ ∀ base : Dword,
    (jobBurst base .header).address = base ∧ (jobBurst base .header).length = 256
      ∧ (jobBurst base (.sweep 0)).address = base + 0x400 ∧ (jobBurst base (.sweep 0)).length = 512
      ∧ (jobBurst base (.sweep 1)).address = base + 0x100 ∧ (jobBurst base (.sweep 1)).length = 512
      ∧ ∀ n, (jobBurst base (.sweep (n + 2))).address = base + BitVec.ofNat 64 (0x800 + 128 * n)
          ∧ (jobBurst base (.sweep (n + 2))).length = 64

/-- R80, R95, R145, R178, R183, R185, R186: what a sweep's directory burst, its feed burst and a unit burst without a new
request bring: the directory copy is replaced, every feed's offered configuration is delivered, new tags are adopted and
the new feed requests taken and answered, or nothing is delivered; the engine goes on, and after the last burst the sweep timer starts from 0. -/
def Obligations.SweepBurstsAreActedOn : Prop :=
  ∀ (n : Nat) (data : List Byte) (b : ReadBurst) (s : State), s.rt.read = some b → b.user = .sweep n → b.live = true →
    data.length = b.length →
    (n = 0 → exec (.sweepBurstComplete data) s = .next
      { s with
        rt := { s.rt with
          read := none, directory := Vector.ofFn fun i : ImageIx => directoryEntryAt data (32 * i.val) }
        port := { s.port with job := some (.sweep 1) } })
    ∧ (n = 1 → ∃ t, exec (.sweepBurstComplete data) s = .next t ∧ t.port.job = some (.sweep 2) ∧ t.rt.read = none
      ∧ (∀ f : FeedIx, t.feeds.feed[f].offered = feedConfigAt data (32 * f.val)
          ∧ t.port.adoptedFeed[f] =
            if feedTagAt data f ≠ 0 then feedTagAt data f else s.port.adoptedFeed[f])
      ∧ (∀ f : FeedIx, feedTagAt data f = 0 ∨ feedTagAt data f = s.port.adoptedFeed[f] →
          t.feeds.feed[f].answerTag = s.feeds.feed[f].answerTag
            ∧ t.feeds.feed[f].answerCode = s.feeds.feed[f].answerCode)
      ∧ (s.feeds.ListsTheWaiting → ∀ f : FeedIx, feedTagAt data f ≠ 0 → feedTagAt data f ≠ s.port.adoptedFeed[f] →
          t.feeds.feed[f].answerTag = feedTagAt data f
            ∧ t.feeds.feed[f].answerCode
                = (s.feeds.take (decide (s.monitor.supply = .up)) f (feedRequestAt data f)).2
            ∧ (s.rt.mode ≠ .stopped → Item.feedStatus f ∈ t.rt.queue)
            ∧ (feedRequestAt data f = some .on → s.feeds.feed[f].state = .off →
                t.feeds.feed[f].state = .waiting ∨ t.feeds.feed[f].state = .softstart)
            ∧ (feedRequestAt data f = some .clear → s.feeds.feed[f].state = .lockedOff →
                s.feeds.feed[f].faultActive = false → t.feeds.feed[f].tripCount = 0)
            ∧ (feedRequestAt data f = some .off → t.feeds.feed[f].state = .off
                ∧ (s.feeds.feed[f].state = .softstart ∨ s.feeds.feed[f].state = .on →
                    ∀ u : UnitIx, s.rt.units[u].config.feed = f → s.rt.units[u].run ≠ .unmanaged →
                      t.rt.units[u].forceCold = true)))
      ∧ t.monitor = s.monitor ∧ t.clock = s.clock ∧ t.pending = s.pending ∧ t.rt.mode = s.rt.mode
      ∧ t.port.events = s.port.events ∧ t.port.change = s.port.change)
    ∧ (∀ u : UnitIx, n = u.val + 2 → unitRequestTagAt data = 0 ∨ unitRequestTagAt data = s.port.adoptedUnit[u] →
        (u.val < 31 → exec (.sweepBurstComplete data) s = .next
          { s with rt := { s.rt with read := none }, port := { s.port with job := some (.sweep (u.val + 3)) } })
        ∧ (u.val = 31 → ∃ t, exec (.sweepBurstComplete data) s = .next t
          ∧ t.port.sweepTimer = 0 ∧ t.port.sweepTimerOn = true ∧ t.rt = { s.rt with read := none }
          ∧ (s.rt.mode = .running → t.port.job =
              if s.port.headerWanted = true then some .header
              else if s.port.sweepWanted = true then some (.sweep 0) else none)
          ∧ t.feeds = s.feeds ∧ t.monitor = s.monitor ∧ t.clock = s.clock ∧ t.pending = s.pending))

/-- R27, R28, R72, R73, R74, R75, R76, R178, R183, R184, R186: a unit burst with a new request is taken once, and the sweep
goes on to its next burst or, after the last, ends with the sweep timer started from 0: its tag is adopted; an
undefined code, and a request that meets one in flight and is neither RETIRE nor RELOAD, is refused with its own tag, the
run and the request in flight unchanged; any other request is taken by its own rule: RETIRE ends management, RELOAD marks
the unit and starts or waits for a run as COLD, RELEASE_DOOR of a HELD door posts its put, and the refusals of ENLIST and
RELEASE_DOOR leave the record but for the answer. -/
def Obligations.NewRequestsAreTaken : Prop :=
  ∀ (u : UnitIx) (data : List Byte) (b : ReadBurst) (s : State), s.rt.read = some b → b.user = .sweep (u.val + 2) →
    b.live = true → data.length = b.length → unitRequestTagAt data ≠ 0 →
    unitRequestTagAt data ≠ s.port.adoptedUnit[u] →
    let tag := unitRequestTagAt data
    let k := s.rt.units[u].config.line
    let answered := fun code : AnswerCode => { s.rt.units[u] with answerTag := tag, answerCode := code }
    ∃ t, exec (.sweepBurstComplete data) s = .next t ∧ t.port.adoptedUnit[u] = unitRequestTagAt data
      ∧ (∀ v : UnitIx, v ≠ u → t.port.adoptedUnit[v] = s.port.adoptedUnit[v])
      ∧ t.rt.read = none ∧ t.due = s.due
      ∧ (u.val < 31 → t.port =
          { s.port with adoptedUnit := t.port.adoptedUnit, job := some (.sweep (u.val + 3)) })
      ∧ (u.val = 31 → t.port.sweepTimer = 0 ∧ t.port.sweepTimerOn = true
          ∧ (s.rt.mode = .running → t.port.job =
              if s.port.headerWanted = true then some .header
              else if s.port.sweepWanted = true then some (.sweep 0) else none))
      ∧ t.feeds = s.feeds ∧ t.monitor = s.monitor ∧ t.clock = s.clock ∧ t.pending = s.pending ∧ t.rt.mode = s.rt.mode
      ∧ (s.rt.mode ≠ .stopped → Item.unitResult u ∈ t.rt.queue
          ∨ unitRequestCodeAt data = 3 ∨ unitRequestCodeAt data = 5)
      ∧ (unitRequestOfCode (unitRequestCodeAt data) = none → t.rt.units[u] = answered .refusedBad)
      ∧ (unitRequestCodeAt data = 1 ∨ unitRequestCodeAt data = 4 ∨ unitRequestCodeAt data = 5 →
          s.rt.units[u].inFlight.isSome = true → t.rt.units[u] = answered .refusedBusy)
      ∧ (∀ q, unitRequestOfCode (unitRequestCodeAt data) = some q →
          s.rt.units[u].inFlight = none ∨ q = .retire ∨ q = .reload →
          t.rt = (State.takeUnitRequest u q tag data { s with rt := { s.rt with read := none } }).rt)
      ∧ (unitRequestCodeAt data = 1 → s.rt.units[u].inFlight = none →
          (s.rt.units[u].run ≠ .unmanaged → t.rt.units[u] = answered .refusedState)
          ∧ (s.rt.units[u].run = .unmanaged → unitConfigAt data = none → t.rt.units[u] = answered .refusedBad)
          ∧ (∀ c, s.rt.units[u].run = .unmanaged → unitConfigAt data = some c →
              s.rt.lineAdmits c = false ∨ s.rt.latchable c.image c.kind = false →
              t.rt.units[u] = answered .refusedBad))
      ∧ (unitRequestCodeAt data = 2 →
          (s.rt.units[u].run = .unmanaged → t.rt.units[u] = answered .refusedState)
          ∧ (s.rt.units[u].run ≠ .unmanaged → s.rt.StepsOfItsGroup u →
              t.rt.units[u].run = .unmanaged ∧ t.rt.units[u].inFlight = none ∧ t.rt.units[u].answerTag = tag
                ∧ t.rt.units[u].answerCode = .done ∧ t.rt.units[u].forceCold = false
                ∧ t.rt.units[u].probePending = false ∧ t.rt.units[u].imageValid = false
                ∧ t.rt.units[u].editPending = false ∧ t.rt.units[u].bootTimer = none
                ∧ t.rt.units[u].attendTimer = none ∧ t.rt.units[u].pollTimer = none
                ∧ t.rt.units[u].context = s.rt.units[u].context
                ∧ t.rt.units[u].contextSeq = s.rt.units[u].contextSeq ∧ (t.rt.lines[k]).waits u = false))
      ∧ (unitRequestCodeAt data = 3 →
          (s.rt.units[u].run = .unmanaged → t.rt.units[u] = answered .refusedState)
          ∧ (s.rt.units[u].run ≠ .unmanaged → s.rt.StepsOfItsGroup u →
              let starts := s.rt.units[u].run ≠ .riding ∧ s.rt.units[u].run ≠ .waitFeed
                ∧ (s.rt.units[u].run = .failed → s.feeds.feed[s.rt.units[u].config.feed].state = .on)
              t.rt.units[u].forceCold = true
                ∧ (starts → s.rt.unitLatchable u = false →
                    t.rt.units[u].run = .failed ∧ t.rt.units[u].cause = .imageChanged
                      ∧ (t.rt.units[u]).Answered { request := .reload, tag := tag } .failed)
                ∧ (¬ starts ∨ s.rt.unitLatchable u = true →
                    t.rt.units[u].inFlight = some { request := .reload, tag := tag }
                      ∧ ∀ q, s.rt.units[u].inFlight = some q →
                          t.rt.units[u].answerTag = q.tag ∧ t.rt.units[u].answerCode = .cut)
                ∧ (starts → s.rt.unitLatchable u = true → s.rt.units[u].run = .probing →
                    t.rt.units[u].run = .probing ∧ t.rt.units[u].bootTimer = some 0
                      ∧ t.rt.units[u].probePending = s.rt.units[u].probePending)
                ∧ (starts → s.rt.unitLatchable u = true → s.rt.units[u].run ≠ .probing →
                    t.rt.units[u].run = .attending ∧ t.rt.units[u].bootTimer = some 0
                      ∧ t.rt.units[u].runClass = .cold ∧ t.rt.units[u].origin = .derived)
                ∧ (s.rt.units[u].run = .riding →
                    t.rt.units[u].run = .riding ∧ t.rt.units[u].runClass = s.rt.units[u].runClass)
                ∧ (s.rt.units[u].run = .waitFeed ∨ s.rt.units[u].run = .failed → ¬ starts →
                    t.rt.units[u].run = .waitFeed
                      ∧ (s.rt.units[u].run = .failed ∨ s.rt.units[u].probePending = false →
                          t.rt.units[u].runClass = .cold ∧ t.rt.units[u].origin = .derived)
                      ∧ (s.rt.units[u].run = .waitFeed → s.rt.units[u].probePending = true →
                          t.rt.units[u].runClass = s.rt.units[u].runClass))))
      ∧ (unitRequestCodeAt data = 5 → s.rt.units[u].inFlight = none →
          (s.rt.units[u].run = .unmanaged → t.rt.units[u] = answered .refusedState)
          ∧ (s.rt.units[u].run ≠ .unmanaged → s.rt.units[u].config.kind ≠ .door →
              t.rt.units[u] = answered .refusedBad)
          ∧ (s.rt.units[u].run ≠ .unmanaged → s.rt.units[u].config.kind = .door → s.rt.units[u].run ≠ .held →
              t.rt.units[u] = answered .refusedState)
          ∧ (s.rt.units[u].config.kind = .door → s.rt.units[u].run = .held → (s.rt.lines[k]).serves u = false →
              t.rt.units[u] = { s.rt.units[u] with inFlight := some { request := .releaseDoor, tag := tag } }
                ∧ t.rt.lines = s.rt.lines.set k ((s.rt.lines[k]).list u (.put .release))
                ∧ Entry.single u (.put .release) ∈ t.rt.lines[k].waitList))

/-- R33, R40, R44, R45, R46, R70, R76, R135: a CONTEXT_EDIT is refused by the first of R44's checks that fails, the record
unchanged but for the answer: REFUSED_STATE for an unmanaged unit, STALE for another base, REFUSED_BAD for a door without a
present context, with another field changed or with isolated neither clear nor set (be it equal to the store: log 32), and
for an undefined display mode. An edit that passes replaces the store, raises the sequence and sets edit-pending; in RUNNING
and HELD it stays in flight and its put, inhibited in HELD alone, is the unit's next work, held while a transaction of the
unit is outstanding; elsewhere it is answered DONE at once. The ACK of an edit's put, of a put for a pending edit and of a
release put answers DONE the request it was posted for alone and clears edit-pending where the put carried the present
sequence; that of a release put takes the door into RUNNING. -/
def Obligations.ContextEditIsTaken : Prop :=
  (∀ (u : UnitIx) (tag : Byte) (base : Word) (edit : Context) (r : Runtime),
    let x := r.units[u]
    let k := x.config.line
    let t := r.edit u tag base edit
    let refused := fun code : AnswerCode =>
      t.units = r.units.set u { x with answerTag := tag, answerCode := code } ∧ t.lines = r.lines
        ∧ (r.mode ≠ .stopped → Item.unitResult u ∈ t.queue)
    (x.run = .unmanaged → refused .refusedState)
    ∧ (x.run ≠ .unmanaged → base ≠ x.contextSeq → refused .stale)
    ∧ (x.run ≠ .unmanaged → base = x.contextSeq →
        (x.config.kind = .door → x.contextPresent = false → refused .refusedBad)
        ∧ (∀ i : Fin 32, x.config.kind = .door → i ≠ 1 → edit[i] ≠ x.context[i] → refused .refusedBad)
        ∧ (x.config.kind = .door → edit[1] ≠ 0 → edit[1] ≠ 1 → refused .refusedBad)
        ∧ (x.config.kind = .display → edit[0] ≠ 1 → edit[0] ≠ 2 → edit[0] ≠ 3 → edit[0] ≠ 4 → refused .refusedBad)
        ∧ (x.config.kind = .display ∧ (edit[0] = 1 ∨ edit[0] = 2 ∨ edit[0] = 3 ∨ edit[0] = 4)
            ∨ x.config.kind = .door ∧ x.contextPresent = true ∧ (∀ i : Fin 32, i ≠ 1 → edit[i] = x.context[i])
              ∧ (edit[1] = 0 ∨ edit[1] = 1) →
          t.units[u].context = edit ∧ t.units[u].contextPresent = true ∧ t.units[u].contextSeq = base + 1
            ∧ t.units[u].editPending = true ∧ t.units[u].run = x.run
            ∧ (∀ v : UnitIx, v ≠ u → t.units[v] = r.units[v])
            ∧ (r.mode ≠ .stopped → Item.unitResult u ∈ t.queue)
            ∧ (x.run = .running ∨ x.run = .held →
                t.units[u].inFlight = some { request := .contextEdit, tag := tag }
                  ∧ t.units[u].answerTag = x.answerTag ∧ t.units[u].answerCode = x.answerCode
                  ∧ ((r.lines[k]).serves u = true →
                      t.units[u].heldWork = some (.put .edit) ∧ t.lines = r.lines)
                  ∧ ((r.lines[k]).serves u = false →
                      t.units[u].heldWork = x.heldWork ∧ t.lines = r.lines.set k ((r.lines[k]).list u (.put .edit))
                        ∧ Entry.single u (.put .edit) ∈ t.lines[k].waitList)
                  ∧ (∀ b data, singlePayload t.units[u] (.put .edit) b data
                      = edit.toList ++ [if x.config.kind = .door ∧ x.run = .held then 1 else 0]))
            ∧ (x.run ≠ .running → x.run ≠ .held →
                t.units[u].inFlight = x.inFlight ∧ t.units[u].answerTag = tag ∧ t.units[u].answerCode = .done
                  ∧ t.lines = r.lines))))
  ∧ ∀ (k : LineIx) (u : UnitIx) (p : PutPurpose) (x : Transaction) (att : Attempt) (q : Word) (ctx : Context)
      (s : State), s.Replies k u (.put p) .ack → s.rt.lines[k].txn = some x → x.attempts.getLast? = some att →
    att.recorded = some (q, ctx) → s.rt.units[u].run = .running ∨ s.rt.units[u].run = .held →
    p = .edit ∨ p = .pendingEdit ∨ p = .release →
    ∃ t, exec (.frameReceived k) s = .next t ∧ s.WithinRuntime 0 t
      ∧ t.rt.lines[k].state = .idle ∧ t.rt.lines[k].txn = none ∧ (∀ v : UnitIx, v ≠ u → t.rt.units[v] = s.rt.units[v])
      ∧ (s.rt.units[u]).KeepsContext t.rt.units[u] ∧ t.rt.units[u].pollTimer = some 0
      ∧ t.rt.units[u].editPending = (s.rt.units[u].editPending && decide (q ≠ s.rt.units[u].contextSeq))
      ∧ (p ≠ .release → t.rt.units[u].run = s.rt.units[u].run ∧ t.rt.units[u].pollMisses = s.rt.units[u].pollMisses)
      ∧ (p = .release → t.rt.units[u].run = .running ∧ t.rt.units[u].pollMisses = 0)
      ∧ (∀ i, s.rt.units[u].inFlight = some i →
          if p = .edit ∧ i.request = .contextEdit ∨ p = .release ∧ i.request = .releaseDoor then
            (t.rt.units[u]).Answered i .done
          else t.rt.units[u].inFlight = some i ∧ t.rt.units[u].answerTag = s.rt.units[u].answerTag)
      ∧ (s.rt.units[u].inFlight = none → t.rt.units[u].inFlight = none
          ∧ t.rt.units[u].answerTag = s.rt.units[u].answerTag ∧ t.rt.units[u].answerCode = s.rt.units[u].answerCode)
      ∧ (∀ w, s.rt.units[u].heldWork = some w → p ≠ .release → (s.rt.lines[k]).waits u = false → s.PostsWork k u w t)

/-- R179, R202: what a burst of the adopting sweep brings: the directory copy, the feeds' offered configurations, or a
unit's tag, taken as read and 0 included; no request is delivered. After the last burst the controller is RUNNING, and
the start's items are queued, the feed statuses in index order as the model's choice (log 23). -/
def Obligations.AdoptingSweepAdopts : Prop :=
  ∀ (n : Nat) (data : List Byte) (b : ReadBurst) (s : State), s.rt.read = some b → b.user = .adopting n →
    b.live = true → data.length = b.length →
    (n = 0 → exec (.adoptingSweepBurstComplete data) s = .next
      { s with
        rt := { s.rt with
          read := none, directory := Vector.ofFn fun i : ImageIx => directoryEntryAt data (32 * i.val) }
        port := { s.port with job := some (.adopting 1) } })
    ∧ (n = 1 → ∃ t, exec (.adoptingSweepBurstComplete data) s = .next t
      ∧ t.rt = { s.rt with read := none } ∧ t.port.job = some (.adopting 2)
      ∧ (∀ f : FeedIx, t.port.adoptedFeed[f] = feedTagAt data f
          ∧ t.feeds.feed[f] = { s.feeds.feed[f] with offered := feedConfigAt data (32 * f.val) })
      ∧ t.feeds.admission = s.feeds.admission ∧ t.feeds.budget = s.feeds.budget)
    ∧ (∀ u : UnitIx, n = u.val + 2 →
        (u.val < 31 → exec (.adoptingSweepBurstComplete data) s = .next
          { s with
            rt := { s.rt with read := none }
            port := { s.port with
              adoptedUnit := s.port.adoptedUnit.set u (unitRequestTagAt data), job := some (.adopting (u.val + 3)) } })
        ∧ (u.val = 31 → ∃ t, exec (.adoptingSweepBurstComplete data) s = .next t
          ∧ t.rt.mode = .running ∧ t.rt.units = s.rt.units ∧ t.port.adoptedUnit[u] = unitRequestTagAt data
          ∧ t.port.starting = false ∧ t.port.startItems = false ∧ t.port.sweepTimer = 0 ∧ t.port.sweepTimerOn = true
          ∧ (s.port.startItems = true → Item.gapList ∈ t.rt.queue ∧ Item.headerStatus ∈ t.rt.queue
              ∧ ∀ f : FeedIx, Item.feedStatus f ∈ t.rt.queue)
          ∧ (s.port.startItems = true → s.rt.queue = [] →
              t.rt.queue = [.gapList, .headerStatus] ++ (List.finRange 16).map Item.feedStatus)
          ∧ t.feeds = s.feeds ∧ t.monitor = s.monitor ∧ t.clock = s.clock ∧ t.pending = s.pending))

/-- R82, R84, R188, R202, R204: what a header load does: every setting is the value read, clamped into its range, CLAMPED
is raised exactly where a value was clamped, the edition is adopted, the budget takes force, with admission considered,
or becomes pending, the header status item is queued, and the start goes on to its adopting sweep, a recovery to
RUNNING. -/
def Obligations.HeaderIsLoaded : Prop :=
  ∀ (data : List Byte) (b : ReadBurst) (s : State), s.rt.read = some b → b.user = .header → b.live = true →
    data.length = b.length →
    ∃ t, exec (.headerLoadComplete data) s = .next t
      ∧ t.rt.settings = (clampHeader (headerFields data)).settings
      ∧ t.port.events = (if headerClamped (headerFields data) = true then s.port.events ||| 16 else s.port.events)
      ∧ (headerClamped (headerFields data) = false ↔
          t.rt.settings = (headerFields data).settings ∧ 1 ≤ (headerFields data).budget
            ∧ (headerFields data).budget ≤ 63)
      ∧ 1 ≤ t.rt.settings.sweepInterval ∧ t.rt.settings.sweepInterval ≤ 255
      ∧ 1 ≤ t.rt.settings.minGap ∧ t.rt.settings.minGap ≤ 255
      ∧ 1 ≤ t.rt.settings.shedTime ∧ t.rt.settings.shedTime ≤ 65535 ∧ t.rt.settings.settle ≤ 65535
      ∧ 128 ≤ t.rt.settings.derate ∧ t.rt.settings.derate ≤ 256 ∧ t.rt.settings.guard ≤ 255
      ∧ 1 ≤ t.rt.settings.attendInterval ∧ t.rt.settings.attendInterval ≤ 255
      ∧ 1 ≤ t.rt.settings.pollInterval ∧ t.rt.settings.pollInterval ≤ 65535
      ∧ 1 ≤ t.rt.settings.missLimit ∧ t.rt.settings.missLimit ≤ 15
      ∧ 1 ≤ t.rt.settings.provingTime ∧ t.rt.settings.provingTime ≤ 65535 ∧ t.rt.settings.retryLimit ≤ 7
      ∧ (∀ k : LineIx, 2 ≤ t.rt.settings.lines[k].divisor ∧ t.rt.settings.lines[k].divisor ≤ 65535
          ∧ 1 ≤ t.rt.settings.lines[k].firstReply ∧ t.rt.settings.lines[k].firstReply ≤ 255
          ∧ 2 ≤ t.rt.settings.lines[k].gapLimit ∧ t.rt.settings.lines[k].gapLimit ≤ 15)
      ∧ t.port.adoptedEdition = (headerFields data).edition
      ∧ (s.feeds.starting = false →
          t.feeds.budget = max 1 (min 63 (headerFields data).budget) ∧ t.feeds.pendingBudget = none
            ∧ t.feeds = ({ s.feeds with
                budget := max 1 (min 63 (headerFields data).budget), pendingBudget := none } : FeedControl).consider
                  (decide (s.monitor.supply = .up)))
      ∧ (s.rt.mode ≠ .stopped → Item.headerStatus ∈ t.rt.queue)
      ∧ (s.feeds.starting = true →
          t.feeds = { s.feeds with pendingBudget := some (max 1 (min 63 (headerFields data).budget)) })
      ∧ (s.port.starting = true → t.rt.mode = s.rt.mode ∧ t.port.job = some (.adopting 0))
      ∧ (s.port.starting = false → s.port.recovering = true →
          t.rt.mode = .running ∧ t.port.recovering = false ∧ t.port.sweepTimer = 0 ∧ t.port.sweepTimerOn = true)
      ∧ t.rt.units = s.rt.units ∧ t.rt.lines = s.rt.lines ∧ t.monitor = s.monitor ∧ t.clock = s.clock
      ∧ t.pending = s.pending ∧ t.port.change = s.port.change

/-- R151, R164, R165, R166, R167: what a block fetch brings: without effect where its slot has become FREE; otherwise the
block is held and the running CRC-32 goes on, and at the end of a first pass whose CRC-32 differs from the image's the
image is marked suspect and a unit loading it alone fails with IMAGE_CHANGED. -/
def Obligations.BlockIsFetched : Prop :=
  ∀ (data : List Byte) (q : FetchRequest) (w : Bool) (b : ReadBurst) (s : State), s.rt.read = some b →
    b.user = .fetch q w → b.live = true → data.length = b.length →
    (w = false → exec (.fetchComplete data) s = .next { s with rt := { s.rt with read := none } })
    ∧ (w = true → ∀ m, s.rt.transferImage q.line = some m →
      let crc := if q.firstPass then s.rt.lines[q.line].crc.map fun c => crc32Over c data else s.rt.lines[q.line].crc
      ∃ t, exec (.fetchComplete data) s = .next t
        ∧ t.monitor = s.monitor ∧ t.feeds = s.feeds ∧ t.clock = s.clock ∧ t.port = s.port ∧ t.pending = s.pending
        ∧ (crcMismatch q m crc = false →
            (if q.second then t.rt.lines[q.line].buffer1 else t.rt.lines[q.line].buffer0)
                = some { index := q.block, data := data }
              ∧ t.rt.lines[q.line].crc = crc ∧ t.rt.suspect = s.rt.suspect
              ∧ (s.rt.lines[q.line].waitBlock = some q.block → t.rt.lines[q.line].waitBlock = none)
              ∧ (∀ g, s.rt.lines[q.line].waitBlock = some q.block → s.rt.lines[q.line].slot = .group g →
                  Entry.group ∈ t.rt.lines[q.line].waitList)
              ∧ (∀ k : LineIx, k ≠ q.line → (s.rt.lines[q.line].groupRecord).isSome = true →
                  t.rt.lines[k] = s.rt.lines[k]))
        ∧ (crcMismatch q m crc = true →
            t.rt.suspect[m.index] = some m.edition
              ∧ (∀ u : UnitIx, s.rt.lines[q.line].slot = .alone u → s.rt.units[u].config.line = q.line →
                  t.rt.units[u].run = .failed ∧ t.rt.units[u].cause = .imageChanged)))

/-- R19, R38, R99, R177, R191, R192: in RUNNING with the write path free the oldest item leaves the queue and its write begins with its content
as it stands: a unit's result part after its result edition went up, a feed's status, the gap list, or the header status
with the suspect bytes. Otherwise nothing begins; that a write whose user has ended keeps the path busy is log 18's. -/
def Obligations.WriteBegins : Prop :=
  ∀ s : State,
    (s.rt.mode ≠ .running ∨ s.port.write.isSome = true ∨ s.rt.queue = [] → exec (.writeBegin true) s = .next s)
    ∧ ∀ i rest, s.rt.mode = .running → s.port.write = none → s.rt.queue = i :: rest →
      ∃ t w, exec (.writeBegin true) s = .next t ∧ t.port = { s.port with write := some w }
        ∧ w.item = i ∧ w.live = true ∧ w.timer = 0
        ∧ (∀ u, i = .unitResult u →
            t.rt = { s.rt with
              queue := rest
              units := s.rt.units.set u { s.rt.units[u] with resultEdition := s.rt.units[u].resultEdition + 1 } }
            ∧ w.writes = [(s.port.base + BitVec.ofNat 64 (0x840 + 128 * u.val), resultPart t.rt.units[u])]
            ∧ (resultPart t.rt.units[u]).length = 64)
        ∧ ((∀ u, i ≠ .unitResult u) → t.rt = { s.rt with queue := rest })
        ∧ (∀ f, i = .feedStatus f →
            w.writes = [(s.port.base + BitVec.ofNat 64 (0x110 + 32 * f.val), feedStatus s.feeds.feed[f])])
        ∧ (i = .gapList → w.writes = [(s.port.base + 0x300, gapMirror s.monitor.gapList)]
            ∧ (gapMirror s.monitor.gapList).length = 256)
        ∧ (i = .headerStatus →
            ∃ bytes, w.writes = (s.port.base + 0x80, bytes) :: (List.finRange 16).map (fun j : ImageIx =>
                (s.port.base + BitVec.ofNat 64 (0x414 + 32 * j.val), [if s.rt.suspect[j].isSome = true then 1 else 0]))
              ∧ bytes.length = 72
              ∧ bytes.take 8 = halfBytes s.port.adoptedEdition ++ [BitVec.ofNat 8 s.feeds.budget, 0]
                  ++ halfBytes (BitVec.ofNat 16 s.monitor.flickers) ++ [0, 0]
              ∧ ∀ k : LineIx, (bytes.drop (8 + 8 * k.val)).take 8 =
                  halfBytes (BitVec.ofNat 16 s.rt.lines[k].strays) ++ halfBytes (BitVec.ofNat 16 s.rt.lines[k].damaged)
                    ++ halfBytes (BitVec.ofNat 16 s.rt.lines[k].overruns)
                    ++ halfBytes (BitVec.ofNat 16 s.rt.lines[k].faults))
        ∧ t.feeds = s.feeds ∧ t.monitor = s.monitor ∧ t.clock = s.clock ∧ t.pending = s.pending ∧ t.due = s.due
        ∧ ∃ t', exec (.writeBegin false) s = .next t' ∧ t'.rt.mode = .areaFault ∧ t'.rt.queue.head? = some i

/-- R191, R194: a write that completes frees the path, and a unit result's sets that unit's CHANGE bit, and no other
bit; a write whose user has ended sets none. -/
def Obligations.WriteCompletes : Prop :=
  ∀ (w : ItemWrite) (s : State), s.port.write = some w →
    ∃ t, exec .writeComplete s = .next t
      ∧ t = { s with port := { s.port with write := none, change := t.port.change } }
      ∧ ∀ u : UnitIx, t.port.change.getLsbD u.val
          = (s.port.change.getLsbD u.val || (w.live && decide (w.item = .unitResult u)))

/-! ### CONTROL and the other registers -/

/-- R201, R202, R204: RUN written as 1 in STOPPED begins a start, in AREA_FAULT a recovery, each with the area base
latched and a header load as the engine's job; nothing else changes but the stored fields. -/
def Obligations.RunBegins : Prop :=
  ∀ (v : Word) (s : State), v.getLsbD 0 = true → v.getLsbD 2 = false →
    (s.rt.mode = .stopped → s.port.starting = false →
      exec (.runStart v) s = .next
        { s with port := { s.port with
            ackExplicit := v.getLsbD 4, changeIe := v.getLsbD 5, stateIe := v.getLsbD 6
            base := s.port.areaHigh ++ s.port.areaLow, starting := true, startItems := true, job := some .header } })
    ∧ (s.rt.mode = .areaFault → s.port.recovering = false →
      exec (.runRecovery v) s = .next
        { s with port := { s.port with
            ackExplicit := v.getLsbD 4, changeIe := v.getLsbD 5, stateIe := v.getLsbD 6
            base := s.port.areaHigh ++ s.port.areaLow, recovering := true, job := some .header } })

/-- R78, R122, R171, R186, R192, R205: what a stop ends and what it keeps; the character or break on a line's wire is
completed (when DE_n is then released: log 8). -/
def Obligations.RunStops : Prop :=
  ∀ (v : Word) (s : State), v.getLsbD 0 = false → v.getLsbD 2 = false →
    s.rt.mode ≠ .stopped ∨ s.port.starting = true →
    ∃ t, exec (.runStop v) s = .next t
      ∧ t.rt.mode = .stopped ∧ t.port.starting = false ∧ t.port.recovering = false ∧ t.port.startItems = false
      ∧ t.port.job = none ∧ t.port.sweepWanted = false ∧ t.port.headerWanted = false ∧ t.port.sweepTimerOn = false
      ∧ t.rt.queue = [] ∧ t.rt.fetchList = [] ∧ (∀ w, t.port.write = some w → w.live = false)
      ∧ (∀ b, t.rt.read = some b → b.live = false)
      ∧ (∀ u : UnitIx, t.rt.units[u].run = .unmanaged
          ∧ (s.rt.units[u].run = .unmanaged → t.rt.units[u] = s.rt.units[u])
          ∧ (s.rt.units[u].run ≠ .unmanaged → t.rt.units[u].inFlight = none ∧ t.rt.units[u].imageValid = false
              ∧ t.rt.units[u].answerTag = s.rt.units[u].answerTag
              ∧ t.rt.units[u].answerCode = s.rt.units[u].answerCode)
          ∧ t.rt.units[u].context = s.rt.units[u].context ∧ t.rt.units[u].contextSeq = s.rt.units[u].contextSeq
          ∧ t.rt.units[u].config = s.rt.units[u].config)
      ∧ (∀ k : LineIx,
          t.rt.lines[k].state = (if s.rt.lines[k].state = .stopped then .stopped else .idle)
          ∧ t.rt.lines[k].quietOwed = true ∧ t.rt.lines[k].txn = none ∧ t.rt.lines[k].waitList = []
          ∧ t.rt.lines[k].slot = .free ∧ t.rt.lines[k].buffer0 = none ∧ t.rt.lines[k].buffer1 = none
          ∧ t.rt.lines[k].seqCounter = s.rt.lines[k].seqCounter ∧ t.rt.lines[k].damaged = s.rt.lines[k].damaged
          ∧ t.rt.lines[k].latched = s.rt.lines[k].latched ∧ (s.rt.lines[k]).CutsTo t.rt.lines[k])
      ∧ t.rt.settings = s.rt.settings ∧ t.rt.directory = s.rt.directory ∧ t.rt.suspect = s.rt.suspect
      ∧ t.port.change = s.port.change ∧ t.port.events = s.port.events ∧ t.port.base = s.port.base
      ∧ t.port.adoptedUnit = s.port.adoptedUnit ∧ t.port.adoptedFeed = s.port.adoptedFeed
      ∧ t.port.adoptedEdition = s.port.adoptedEdition ∧ t.port.ackExplicit = v.getLsbD 4
      ∧ t.monitor = s.monitor ∧ t.feeds = s.feeds ∧ t.clock = s.clock ∧ t.pending = s.pending

/-- R200, R201: a host that writes CONTROL back with RUN as read, in STOPPED or RUNNING, and without a trigger changes
the three stored fields alone, which then read as written; IRQ_N follows the bits and the enables at once. -/
def Obligations.StoredFieldsAreWritten : Prop :=
  ∀ (c : Instr) (v : Word) (s : State), c = .ackMode v ∨ c = .changeIe v ∨ c = .stateIe v →
    v.getLsbD 1 = false → v.getLsbD 2 = false → v.getLsbD 0 = s.controlValue.getLsbD 0 → s.rt.mode ≠ .areaFault →
    ∃ t, exec c s = .next t
      ∧ t = { s with port := { s.port with
          ackExplicit := v.getLsbD 4, changeIe := v.getLsbD 5, stateIe := v.getLsbD 6 } }
      ∧ t.controlValue.getLsbD 0 = s.controlValue.getLsbD 0 ∧ t.controlValue.getLsbD 4 = v.getLsbD 4
      ∧ t.controlValue.getLsbD 5 = v.getLsbD 5 ∧ t.controlValue.getLsbD 6 = v.getLsbD 6
      ∧ (t.irqAsserted = true ↔
          (s.port.change ≠ 0 ∧ v.getLsbD 5 = true) ∨ (s.port.events ≠ 0 ∧ v.getLsbD 6 = true))

/-- R172, R195, R196: a read of CHANGE returns the bits of the bytes it covers. With ACK_MODE at 0 it clears all 32 bits
and a write is dropped; with ACK_MODE at 1 it clears none and a write clears exactly the bits written as 1. That the bytes
not covered read as 0 is the model's choice (log 16). -/
def Obligations.ChangeIsAcknowledged : Prop :=
  (∀ (lanes : BitVec 4) (s : State),
    ∃ t, exec (.changeRead lanes) s = .next t
      ∧ t = { s with port := { s.port with readData := t.port.readData, change := t.port.change } }
      ∧ (∀ i : Fin 4, ∀ j : Fin 8, t.port.readData.getLsbD (8 * i.val + j.val)
          = (s.port.change.getLsbD (8 * i.val + j.val) && lanes.getLsbD i.val))
      ∧ (s.port.ackExplicit = false → t.port.change = 0)
      ∧ (s.port.ackExplicit = true → t.port.change = s.port.change))
  ∧ ∀ (v : Word) (s : State),
    ∃ t, exec (.changeWrite v) s = .next t ∧ t = { s with port := { s.port with change := t.port.change } }
      ∧ (s.port.ackExplicit = true → ∀ i : UnitIx,
          t.port.change.getLsbD i.val = (s.port.change.getLsbD i.val && !v.getLsbD i.val))
      ∧ (s.port.ackExplicit = false → t = s)

/-- R198, R199: a write to STATE clears exactly the event bits written as 1, and leaves the two fields that show the mode
and the supply state. -/
def Obligations.StateIsWritten : Prop :=
  ∀ (v : Word) (s : State),
    ∃ t, exec (.stateWrite v) s = .next t ∧ t = { s with port := { s.port with events := t.port.events } }
      ∧ (∀ i : Fin 5, t.port.events.getLsbD i.val = (s.port.events.getLsbD i.val && !v.getLsbD i.val))
      ∧ t.stateValue.extractLsb' 8 8 = s.stateValue.extractLsb' 8 8

/-- R172, R173: a write narrower than 32 bits and a write outside the six registers are dropped; AREA_LOW keeps its bits
31 to 12 and reads 0 below, AREA_HIGH is stored whole, neither moves the base in use, and the other four offsets act as
the commands of their registers. A read narrower than 32 bits returns the addressed bytes of the register, and one outside
the six registers 0. That an access at an offset inside a register's word is addressed by its byte lanes, and one whose
offset is no multiple of 4 is dropped and reads 0 as a whole word, is the model's choice (logs 15 and 16). -/
def Obligations.RegistersAreWritten : Prop :=
  ∀ (offset : BitVec 12) (lanes : BitVec 4) (v : Word) (s : State),
    (lanes ≠ 0xF → exec (.registerWrite offset lanes v) s = .next s)
    ∧ (0x14 < offset.toNat ∨ offset.toNat % 4 ≠ 0 →
        exec (.registerWrite offset 0xF v) s = .next s ∧ s.readRegister offset = 0)
    ∧ (∃ t, exec (.registerWrite 0x00 0xF v) s = .next t
        ∧ t = { s with port := { s.port with areaLow := t.port.areaLow } }
        ∧ t.readRegister 0x00 = (v >>> 12) <<< 12)
    ∧ (∃ t, exec (.registerWrite 0x04 0xF v) s = .next t ∧ t = { s with port := { s.port with areaHigh := v } }
        ∧ t.readRegister 0x04 = v)
    ∧ (v.getLsbD 2 = true → exec (.registerWrite 0x08 0xF v) s = exec (.restart v) s)
    ∧ (v.getLsbD 2 = false → exec (.registerWrite 0x08 0xF v) s = exec (.ackMode v) s)
    ∧ exec (.registerWrite 0x0C 0xF v) s = exec (.sweep v) s
    ∧ exec (.registerWrite 0x10 0xF v) s = exec (.changeWrite v) s
    ∧ exec (.registerWrite 0x14 0xF v) s = exec (.stateWrite v) s
    ∧ (∀ i : Fin 4, ∀ j : Fin 8, (s.readBytes offset lanes).getLsbD (8 * i.val + j.val)
        = (lanes.getLsbD i.val && (s.readRegister ((offset >>> 2) <<< 2)).getLsbD (8 * i.val + j.val)))
    ∧ (0x17 < offset.toNat → s.readBytes offset lanes = 0) ∧ s.readRegister 0x08 = s.controlValue
    ∧ s.readRegister 0x0C = 0 ∧ s.readRegister 0x10 = s.port.change ∧ s.readRegister 0x14 = s.stateValue

/-! ### Requests that enter management -/

/-- R26, R54, R73: an ENLIST of an entry that is not managed, with a configuration in range that its line and its image
entry admit, is taken: the record starts afresh with the answer fields and the result edition kept, the ENLIST is in
flight, and the state follows the supply and the feed. -/
def Obligations.EnlistIsTaken : Prop :=
  ∀ (u : UnitIx) (tag : Byte) (data : List Byte) (c : UnitConfig) (s : State), s.rt.units[u].run = .unmanaged →
    unitConfigAt data = some c → s.rt.lineAdmits c = true → s.rt.suspect[c.image] = none →
    directoryValid s.rt.directory[c.image] = true → kindOfCode s.rt.directory[c.image].kindCode = c.kind →
    let t := s.enlist u tag data
    t.rt.units[u].config = c ∧ t.rt.units[u].image = latchedImage c.image s.rt.directory[c.image]
      ∧ t.rt.units[u].probePending = true ∧ t.rt.units[u].forceCold = false ∧ t.rt.units[u].imageValid = false
      ∧ t.rt.units[u].editPending = false ∧ t.rt.units[u].runClass = .rode ∧ t.rt.units[u].origin = .derived
      ∧ t.rt.units[u].lastClass = none ∧ t.rt.units[u].bootCount = none ∧ t.rt.units[u].misses = 0
      ∧ t.rt.units[u].loads = 0 ∧ t.rt.units[u].context = Context.zero ∧ t.rt.units[u].contextPresent = false
      ∧ t.rt.units[u].contextSeq = 0 ∧ t.rt.units[u].cause = .blank
      ∧ t.rt.units[u].resultEdition = s.rt.units[u].resultEdition
      ∧ t.rt.units[u].answerTag = s.rt.units[u].answerTag ∧ t.rt.units[u].answerCode = s.rt.units[u].answerCode
      ∧ t.rt.units[u].inFlight = some { request := .enlist, tag := tag }
      ∧ t.rt.units[u].run =
          (if s.monitor.supply = .gap ∨ s.monitor.supply = .settling then .riding
          else if s.feeds.feed[c.feed].state = .on then .probing else .waitFeed)
      ∧ (t.rt.units[u].run = .probing → t.rt.units[u].bootTimer = some 0)
      ∧ (s.rt.mode ≠ .stopped → Item.unitResult u ∈ t.rt.queue)
      ∧ (∀ v : UnitIx, v ≠ u → t.rt.units[v] = s.rt.units[v])
      ∧ t.monitor = s.monitor ∧ t.feeds = s.feeds ∧ t.clock = s.clock ∧ t.port = s.port ∧ t.pending = s.pending

/-! ### Unit lines -/

/-- R106, R119: at the end of the closing bit time DE_n is released, and the reply window opens, or the pause begins; an
abandoned attempt takes the line to IDLE without a window. -/
def Obligations.FrameTransmitted : Prop :=
  ∀ (k : LineIx) (clk : Nat) (f : TxFrame) (s : State), s.clock.prescaler + clk < 4096 →
    s.rt.lines[k].state = .sending → s.rt.lines[k].pausing = false → s.rt.lines[k].frame = some f →
    (7 + f.payload.length) * (176 * s.rt.lines[k].latched.divisor) + 16 * s.rt.lines[k].latched.divisor
      ≤ s.rt.lines[k].phaseTimer + clk →
    ∃ t, exec (.frameTransmitted k clk) s = .next t
      ∧ (s.rt.lines[k].abandoned = false → f.replyExpected = true →
          s.OnLineAlone k clk t ∧ (t.rt.lines[k]).driverEnabled = false
            ∧ t.rt.lines[k] = { (s.rt.lines[k]).elapse clk with
                state := .awaiting, phaseTimer := 0, firstReply := some 0, interChar := none, silence := none })
      ∧ (s.rt.lines[k].abandoned = false → f.replyExpected = false → f.pause ≠ 0 →
          s.OnLineAlone k clk t ∧ (t.rt.lines[k]).driverEnabled = false
            ∧ t.rt.lines[k] = { (s.rt.lines[k]).elapse clk with pausing := true, phaseTimer := 0 })
      ∧ (s.rt.lines[k].abandoned = true → (s.rt.lines[k]).groupRecord = none →
          s.OnLineAlone k clk t ∧ t.rt.lines[k].state = .idle ∧ t.rt.lines[k].firstReply = none
            ∧ t.rt.lines[k].frame = none ∧ t.rt.lines[k].txn = s.rt.lines[k].txn
            ∧ t.rt.lines[k].seqCounter = s.rt.lines[k].seqCounter)

/-- R106, R119, R130, R157: at the end of the pause after a group frame the tally follows, its first BLOCK_ASK a single
attempt addressed to the next member; an abandoned attempt takes the line to IDLE. -/
def Obligations.PauseEnds : Prop :=
  ∀ (k : LineIx) (clk : Nat) (f : TxFrame) (s : State), s.clock.prescaler + clk < 4096 →
    s.rt.lines[k].state = .sending → s.rt.lines[k].pausing = true → s.rt.lines[k].frame = some f →
    f.pause * (176 * s.rt.lines[k].latched.divisor) ≤ s.rt.lines[k].phaseTimer + clk →
    ∃ t, exec (.pauseEnd k clk) s = .next t
      ∧ (s.rt.lines[k].abandoned = true → (s.rt.lines[k]).groupRecord = none →
          s.OnLineAlone k clk t ∧ t.rt.lines[k].state = .idle ∧ t.rt.lines[k].txn = s.rt.lines[k].txn)
      ∧ (∀ (g : Group) (x : Transaction) (u : UnitIx) (rest : List (Option UnitIx)),
          s.rt.lines[k].abandoned = false → s.rt.lines[k].slot = .group g → g.phase = .blocks → g.inRound = true →
          g.todo = some u :: rest → s.rt.lines[k].txn = some x → x.contender = .group none →
          s.OnLineAlone k clk t ∧ t.rt.lines[k].slot = .group { g with todo := rest }
            ∧ t.rt.lines[k].state = (if s.rt.lines[k].quietOwed = true then .quiet else .sending)
            ∧ ∃ y, t.rt.lines[k].txn = some y ∧ y.contender = .group (some u) ∧ y.kind = .blockAsk
                ∧ y.address = s.rt.units[u].config.address ∧ y.block = g.block ∧ y.limit = 1 ∧ y.made = 1)

/-- R118, R119: the break half of QUIET is followed by the idle half with DE_n released; at its end the quiet-owed flag
is cleared and the handed frame begins with the present sequence, or, abandoned, the line enters IDLE without sending. -/
def Obligations.QuietEnds : Prop :=
  ∀ (k : LineIx) (clk : Nat) (s : State), s.clock.prescaler + clk < 4096 → s.rt.lines[k].state = .quiet →
    2 * (176 * s.rt.lines[k].latched.divisor) ≤ s.rt.lines[k].phaseTimer + clk →
    (s.rt.lines[k].idleHalf = false →
      ∃ t, exec (.quietBreakHalfEnd k clk) s = .next t ∧ s.OnLineAlone k clk t
        ∧ t.rt.lines[k] = { (s.rt.lines[k]).elapse clk with idleHalf := true, phaseTimer := 0 }
        ∧ (t.rt.lines[k]).driverEnabled = false ∧ (t.rt.lines[k]).breakDriven = false)
    ∧ (s.rt.lines[k].idleHalf = true →
      ∃ t, exec (.quietEnd k clk) s = .next t ∧ t.rt.lines[k].quietOwed = false
        ∧ (s.rt.lines[k].abandoned = true → (s.rt.lines[k]).groupRecord = none →
            s.OnLineAlone k clk t ∧ t.rt.lines[k].state = .idle
              ∧ t.rt.lines[k].seqCounter = s.rt.lines[k].seqCounter)
        ∧ (∀ x, s.rt.lines[k].abandoned = false → s.rt.lines[k].txn = some x →
            s.WithinRuntime clk t ∧ t.rt.units = s.rt.units
              ∧ (∀ j : LineIx, j ≠ k → t.rt.lines[j] = (s.rt.lines[j]).elapse clk)
              ∧ t.rt.lines[k].state = .sending ∧ (t.rt.lines[k]).driverEnabled = true
              ∧ t.rt.lines[k].phaseTimer = 0 ∧ t.rt.lines[k].seqCounter = s.rt.lines[k].seqCounter + 1
              ∧ ∃ f, t.rt.lines[k].frame = some f ∧ f.seq = s.rt.lines[k].seqCounter ∧ f.address = x.address
                  ∧ f.kind = x.kind))

/-- R103, R104, R106, R107, R108, R109, R111, R113, R115: a sent character has a start bit low, its data least
significant bit first, an even parity bit and a stop bit high, and a receiver that samples it 16 times a bit reads it
back without a flag; TXD_n carries a frame's bits one after another, and is high in the closing bit time and in the
pause. A character without the break flag completes with the 160 samples after its start bit; it goes to the assembler
in AWAITING and RECEIVING, waits in the FIFO where the assembler is held, behind those that wait there, in the shift
register where 8 wait, and anywhere else is one stray, and a high timer that runs follows its samples. The assembler
takes the oldest first, and the one in the shift register joins the FIFO at its tail. A first character that is not the
lead, a flagged one and a length above 64 damage the frame; a frame ends with its 7 + L characters, clean where its CRC
is right. -/
def Obligations.CharacterIsReceived : Prop :=
  (∀ (c : RxChar),
    (rxFlagged c = true → Assembly.idle.take c = .discarding 1
      ∧ ∀ bytes, (Assembly.collecting bytes).take c = .discarding (bytes.length + 1))
    ∧ (rxFlagged c = false → c.data ≠ 0xC5 → Assembly.idle.take c = .discarding 1)
    ∧ (rxFlagged c = false → c.data = 0xC5 → Assembly.idle.take c = .collecting [c.data])
    ∧ (∀ bytes : List Byte, rxFlagged c = false → bytes.head? = some 0xC5 →
        let taken := bytes ++ [c.data]
        (taken.length < 5 → (Assembly.collecting bytes).take c = .collecting taken)
        ∧ (5 ≤ taken.length → 64 < receivedLength taken →
            (Assembly.collecting bytes).take c = .discarding taken.length)
        ∧ (5 ≤ taken.length → receivedLength taken ≤ 64 → taken.length < 7 + receivedLength taken →
            (Assembly.collecting bytes).take c = .collecting taken)
        ∧ (5 ≤ taken.length → receivedLength taken ≤ 64 → 7 + receivedLength taken ≤ taken.length →
            (Assembly.collecting bytes).take c
              = if receivedCrcRight taken = true then .held taken else .discarding taken.length)))
  ∧ (∀ (bits : BitVec 10) (overrun : Bool),
    (∀ i : Fin 8, (rxChar bits overrun).data.getLsbD i.val = bits.getLsbD i.val)
      ∧ (rxChar bits overrun).framing = !bits.getLsbD 9 ∧ (rxChar bits overrun).overrun = overrun)
  ∧ (∀ (b : Byte) (overrun : Bool),
    (characterBits b).length = 11 ∧ (characterBits b)[0]? = some false ∧ (characterBits b)[10]? = some true
      ∧ (∀ i : Fin 8, (characterBits b)[i.val + 1]? = some (b.getLsbD i.val))
      ∧ (((characterBits b).drop 1).take 9).count true % 2 = 0
      ∧ ∀ samples : List SampleRun,
          (∀ i : Fin 10, (sampleLevels samples)[16 * i.val + 15]? = (characterBits b)[i.val + 1]?) →
          rxChar (readBits (sampleLevels samples)) overrun
              = { data := b, parity := false, framing := false, overrun := overrun }
            ∧ readBits (sampleLevels samples) ≠ 0)
  ∧ (∀ (l : LineRecord) (c : RxChar) (rest : List RxChar), l.fifo = c :: rest → l.fifo.length ≤ 8 →
    (l.shift.isSome = true → l.fifo.length = 8) →
    (l.assembly.blocked = true → l.pump = l)
      ∧ (l.assembly.blocked = false →
          l.pump = ({ l with
            assembly := l.assembly.take c, fifo := rest ++ l.shift.toList, shift := none } : LineRecord).pump))
  ∧ (∀ (l : LineRecord) (f : TxFrame), l.state = .sending → l.frame = some f → 0 < l.latched.divisor →
    (l.pausing = true → l.txdHigh = true)
      ∧ (l.pausing = false → (7 + f.payload.length) * (176 * l.latched.divisor) ≤ l.phaseTimer → l.txdHigh = true)
      ∧ ∀ (i j : Nat) (c : Byte), l.pausing = false → (frameCharacters f)[i]? = some c → j < 11 →
          l.phaseTimer / (16 * l.latched.divisor) = 11 * i + j → l.txdHigh = (characterBits c).getD j true)
  ∧ ∀ (k : LineIx) (clk : Nat) (samples : List SampleRun) (overrun : Bool) (s : State),
    s.clock.prescaler + clk < 4096 →
    s.rt.lines[k].state ≠ .stopped → s.rt.lines[k].receiving = some overrun → sampleCount samples = 160 →
    160 * s.rt.lines[k].latched.divisor ≤ s.rt.lines[k].rxClock + clk → readBits (sampleLevels samples) ≠ 0 →
    let bits := readBits (sampleLevels samples)
    ∃ t, exec (.characterReceived k clk samples) s = .next t ∧ s.OnLineAlone k clk t
      ∧ t.rt.lines[k].receiving = none ∧ t.rt.lines[k].state = s.rt.lines[k].state
      ∧ t.rt.lines[k].hunt = (if bits.getLsbD 9 = true then .high else .waitHigh)
      ∧ t.rt.lines[k].rxClock = s.rt.lines[k].rxClock + clk - 160 * s.rt.lines[k].latched.divisor
      ∧ (s.rt.lines[k].state ≠ .awaiting → s.rt.lines[k].state ≠ .receiving →
          t.rt.lines[k] = { (s.rt.lines[k]).elapse clk with
            receiving := none, strays := min (s.rt.lines[k].strays + 1) 65535
            hunt := t.rt.lines[k].hunt, rxClock := t.rt.lines[k].rxClock
            high := s.rt.lines[k].high.map (highAfter s.rt.lines[k].latched.divisor (sampleLevels samples)) })
      ∧ (s.rt.lines[k].state = .awaiting ∨ s.rt.lines[k].state = .receiving →
          s.rt.lines[k].fifo = [] → s.rt.lines[k].shift = none →
          t.rt.lines[k].strays = s.rt.lines[k].strays ∧ t.rt.lines[k].silence = some 0
            ∧ (s.rt.lines[k].assembly.blocked = false →
                t.rt.lines[k].assembly = s.rt.lines[k].assembly.take (rxChar bits overrun)
                  ∧ t.rt.lines[k].fifo = [])
            ∧ (s.rt.lines[k].assembly.blocked = true →
                t.rt.lines[k].assembly = s.rt.lines[k].assembly
                  ∧ t.rt.lines[k].fifo = [rxChar bits overrun]))
      ∧ (s.rt.lines[k].state = .awaiting ∨ s.rt.lines[k].state = .receiving →
          s.rt.lines[k].shift = none → s.rt.lines[k].assembly.blocked = true →
          t.rt.lines[k].assembly = s.rt.lines[k].assembly ∧ t.rt.lines[k].strays = s.rt.lines[k].strays
            ∧ t.rt.lines[k].overruns = s.rt.lines[k].overruns
            ∧ (s.rt.lines[k].fifo.length < 8 →
                t.rt.lines[k].fifo = s.rt.lines[k].fifo ++ [rxChar bits overrun] ∧ t.rt.lines[k].shift = none)
            ∧ (s.rt.lines[k].fifo.length = 8 →
                t.rt.lines[k].fifo = s.rt.lines[k].fifo ∧ t.rt.lines[k].shift = some (rxChar bits overrun)))

/-- R107, R110, R111: a break, 160 samples after its start bit, is discarded in QUIET, restarts the high timer in
FAULTED, and elsewhere takes the line to FAULTED: the fault count goes up by 1, the FIFO's characters are strays, the
character being transmitted is completed and then DE_n released (log 8), the frame in assembly is dropped uncounted,
that of an abandoned attempt included (log 38), and the outstanding transaction is over; a HELLO_ASK attempt that fails
so starts its unit's attend timer. No start bit follows before RXD_n has read high. -/
def Obligations.BreakIsReceived : Prop :=
  ∀ (k : LineIx) (clk : Nat) (overrun : Bool) (s : State), s.clock.prescaler + clk < 4096 →
    s.rt.lines[k].state ≠ .stopped → s.rt.lines[k].receiving = some overrun →
    160 * s.rt.lines[k].latched.divisor ≤ s.rt.lines[k].rxClock + clk →
    let rest := s.rt.lines[k].rxClock + clk - 160 * s.rt.lines[k].latched.divisor
    ∃ t, exec (.breakReceived k clk) s = .next t ∧ s.WithinRuntime clk t
      ∧ (s.rt.lines[k].state = .quiet →
          s.OnLineAlone k clk t ∧ t.rt.lines[k] = { (s.rt.lines[k]).elapse clk with
            receiving := none, hunt := .waitHigh, rxClock := rest })
      ∧ (s.rt.lines[k].state = .faulted →
          s.OnLineAlone k clk t
            ∧ t.rt.lines[k] = { (s.rt.lines[k]).elapse clk with
                receiving := none, hunt := .waitHigh, rxClock := rest, high := some 0 })
      ∧ (s.rt.lines[k].state ≠ .quiet → s.rt.lines[k].state ≠ .faulted →
          t.rt.lines[k].state = .faulted ∧ t.rt.lines[k].faults = min (s.rt.lines[k].faults + 1) 65535
            ∧ t.rt.lines[k].strays = min (s.rt.lines[k].strays + (s.rt.lines[k].fifo.length
                + s.rt.lines[k].shift.toList.length)) 65535
            ∧ t.rt.lines[k].fifo = [] ∧ t.rt.lines[k].high = some 0 ∧ t.rt.lines[k].txn = none
            ∧ ((s.rt.lines[k]).elapse clk).CutsTo t.rt.lines[k]
            ∧ t.rt.lines[k].receiving = none ∧ t.rt.lines[k].hunt = .waitHigh ∧ t.rt.lines[k].rxClock = rest
            ∧ t.rt.lines[k].seqCounter = s.rt.lines[k].seqCounter
            ∧ t.rt.lines[k].quietOwed = s.rt.lines[k].quietOwed
            ∧ (s.rt.lines[k].txn = none → s.OnLineAlone k clk t)
            ∧ ∀ x u, s.rt.lines[k].txn = some x → x.contender = .single u .hello →
                s.rt.units[u].bootHeld = false → s.rt.units[u].heldWork = none →
                s.rt.units[u].run = .probing ∨ s.rt.units[u].run = .attending →
                t.rt.units[u] = { s.rt.units[u] with attendTimer := some 0 })

/-- R112, R116, R119, R121: a clean frame that does not answer the attempt is a stray frame, its 7 + L characters counted
together, and with nothing else arriving the line returns to AWAITING with the first-reply timer as held; the frame of an
abandoned attempt ends it with its characters counted as strays. -/
def Obligations.StrayFrameIsDiscarded : Prop :=
  ∀ (k : LineIx) (bytes : List Byte) (s : State), s.clock.prescaler < 4096 → s.rt.lines[k].state = .receiving →
    s.rt.lines[k].assembly = .held bytes → s.rt.lines[k].fifo = [] → s.rt.lines[k].shift = none →
    (∀ f, s.rt.lines[k].frame = some f → s.rt.lines[k].abandoned = false →
      receivedAddress bytes ≠ f.address ∨ receivedSeq bytes ≠ f.seq → s.rt.lines[k].receiving = none →
      ∃ t, exec (.frameReceived k) s = .next t ∧ s.OnLineAlone k 0 t
        ∧ t.rt.lines[k] = { s.rt.lines[k] with
            state := .awaiting, assembly := .idle, interChar := none, silence := none
            strays := min (s.rt.lines[k].strays + bytes.length) 65535 })
    ∧ (s.rt.lines[k].abandoned = true → (s.rt.lines[k]).groupRecord = none →
      ∃ t, exec (.frameReceived k) s = .next t ∧ s.OnLineAlone k 0 t ∧ t.rt.lines[k].state = .idle
        ∧ t.rt.lines[k].strays = min (s.rt.lines[k].strays + bytes.length) 65535
        ∧ t.rt.lines[k].damaged = s.rt.lines[k].damaged ∧ t.rt.lines[k].assembly = .idle)

/-- R32, R33, R34, R36, R43, R61, R62, R64, R65, R66: a HELLO taken in PROBING or ATTENDING sets the stored boot count and
image-valid and leads to LOADING or RESTORING by their tables; a VERDICT leads to RESTORING, to a second load or to
FAILED. The ACK that answers the put of RESTORING takes the unit into service: a door into RUNNING
only where the context of the answered put was closed and locked or isolated, else into HELD, a display into RUNNING;
the probe ends, an ENLIST or RELOAD in flight is answered DONE, and edit-pending is cleared where the put carried the
present sequence. -/
def Obligations.RestoringEnds : Prop :=
  (∀ (k : LineIx) (u : UnitIx) (h : Hello) (s : State), s.Replies k u .hello (.hello h) →
    let x := s.rt.units[u]
    let same := h.intact = true ∧ h.edition = x.image.edition ∧ h.crc = x.image.crc
    x.run = .probing ∨ x.run = .attending →
    ∃ t, exec (.frameReceived k) s = .next t ∧ s.WithinRuntime 0 t
      ∧ t.rt.lines[k].state = .idle ∧ t.rt.lines[k].txn = none
      ∧ (∀ v : UnitIx, v ≠ u → t.rt.units[v].run = s.rt.units[v].run)
      ∧ t.rt.units[u].bootCount = some h.bootCount ∧ t.rt.units[u].bootTimer = none
      ∧ t.rt.units[u].attendTimer = none ∧ t.rt.units[u].runClass = x.runClass
      ∧ (x.run = .probing → x.forceCold = true ∨ ¬same →
          s.EntersLoading u t ∧ x.KeepsContext t.rt.units[u] ∧ t.rt.units[u].misses = x.misses)
      ∧ (x.run = .probing → x.forceCold = false → same →
          t.rt.units[u].run = .restoring ∧ t.rt.units[u].imageValid = true ∧ t.rt.units[u].probePending = x.probePending
            ∧ (∀ c, h.retained = some c → x.Adopts c t.rt.units[u] ∧ s.PostsWork k u (.put .restore) t)
            ∧ (h.retained = none → x.KeepsContext t.rt.units[u]
                ∧ s.PostsWork k u (if x.contextPresent = true then .put .restore else .status) t))
      ∧ (x.run = .attending → x.runClass = .cold →
          s.EntersLoading u t ∧ x.KeepsContext t.rt.units[u] ∧ t.rt.units[u].misses = x.misses)
      ∧ (x.run = .attending → x.runClass = .warm → ¬same →
          s.EntersLoading u t ∧ x.KeepsContext t.rt.units[u]
            ∧ t.rt.units[u].misses =
                (if x.origin = .classified ∧ (h.intact = false ∨ h.edition = x.image.edition) then min (x.misses + 1) 65535
                  else x.misses))
      ∧ (x.run = .attending → x.runClass = .warm → same →
          t.rt.units[u].run = .restoring ∧ t.rt.units[u].imageValid = true ∧ t.rt.units[u].misses = x.misses
            ∧ s.PostsWork k u (.put .restore) t
            ∧ (∀ c, h.retained = some c → x.Adopts c t.rt.units[u])
            ∧ (h.retained = none → x.KeepsContext t.rt.units[u])))
  ∧ (∀ (k : LineIx) (u : UnitIx) (good : Bool) (s : State), s.Replies k u .imageEnd (.verdict good) →
    let x := s.rt.units[u]
    x.run = .verifying →
    ∃ t, exec (.frameReceived k) s = .next t ∧ s.WithinRuntime 0 t
      ∧ t.rt.lines[k].state = .idle ∧ t.rt.lines[k].txn = none ∧ x.KeepsContext t.rt.units[u]
      ∧ (∀ v : UnitIx, v ≠ u → t.rt.units[v].run = s.rt.units[v].run)
      ∧ (good = true →
          t.rt.units[u].run = .restoring ∧ t.rt.units[u].imageValid = true ∧ t.rt.units[u].forceCold = false
            ∧ t.rt.units[u].bootCount = none ∧ t.rt.units[u].verdicts = x.verdicts
            ∧ s.PostsWork k u
                (if x.probePending = true ∧ x.contextPresent = false then .status else .put .restore) t)
      ∧ (good = false → t.rt.units[u].verdicts = x.verdicts + 1
          ∧ (x.verdicts = 0 → s.EntersLoading u t)
          ∧ (1 ≤ x.verdicts → t.rt.units[u].run = .failed ∧ t.rt.units[u].cause = .imageBad)))
  ∧ ∀ (k : LineIx) (bytes : List Byte) (f : TxFrame) (x : Transaction) (att : Attempt) (u : UnitIx) (q : Word)
      (ctx : Context) (s : State),
    s.clock.prescaler < 4096 → s.rt.lines[k].state = .receiving → s.rt.lines[k].assembly = .held bytes →
    s.rt.lines[k].abandoned = false → s.rt.lines[k].frame = some f → receivedAddress bytes = f.address →
    receivedSeq bytes = f.seq → receivedKind bytes = 10 → receivedPayload bytes = [] →
    s.rt.lines[k].txn = some x → x.contender = .single u (.put .restore) → x.kind = .contextPut →
    x.attempts.getLast? = some att → att.recorded = some (q, ctx) → s.rt.units[u].run = .restoring →
    ∃ t, exec (.frameReceived k) s = .next t ∧ s.WithinRuntime 0 t
      ∧ t.rt.units[u].run =
          (if s.rt.units[u].config.kind = .door ∧ ctx[0] ≠ 1 ∧ ctx[1] = 0 then .held else .running)
      ∧ t.rt.units[u].probePending = false ∧ t.rt.units[u].pollMisses = 0 ∧ t.rt.units[u].cause = .blank
      ∧ t.rt.units[u].pollTimer = some 0
      ∧ t.rt.units[u].editPending = (s.rt.units[u].editPending && decide (q ≠ s.rt.units[u].contextSeq))
      ∧ t.rt.units[u].context = s.rt.units[u].context ∧ t.rt.units[u].contextSeq = s.rt.units[u].contextSeq
      ∧ (∀ p, s.rt.units[u].inFlight = some p → (p.request = .enlist ∨ p.request = .reload) →
          t.rt.units[u].inFlight = none ∧ t.rt.units[u].answerTag = p.tag ∧ t.rt.units[u].answerCode = .done)
      ∧ t.rt.lines[k].state = .idle ∧ t.rt.lines[k].txn = none
      ∧ (∀ v : UnitIx, v ≠ u → t.rt.units[v] = s.rt.units[v])

/-- R29, R30, R34, R35, R36, R41, R42, R43, R52, R63, R65, R69: the STATUS that answers a poll of a unit in service is a
capture where edit-pending is clear, the sequence recorded at the send is the present one and the boot count is the
stored one or that is unknown; where only the sequence or edit-pending fails, the store stays and the miss count is
cleared; where the boot count differs from a known one, the unit is lost: an edit or release in flight is answered
FAILED and a new run attends it, as COLD also where force-cold is set with image-valid true (R30, log 20). In CHECKING a
STATUS of the known boot count confirms the ride-through, and any other is a miss. In a probe's RESTORING the STATUS is
adopted and the put is posted. That edit-pending there keeps only the context out, and that a RELOAD in flight stays so
in a confirmed ride-through, is the model's choice (logs 31 and 33). -/
def Obligations.PollReplyIsJudged : Prop :=
  (∀ (k : LineIx) (u : UnitIx) (boot b : Half) (c : Context) (s : State), s.Replies k u .poll (.status boot c) →
    let x := s.rt.units[u]
    x.run = .running ∨ x.run = .held → x.bootCount = some b → b ≠ boot →
    ∃ t, exec (.frameReceived k) s = .next t ∧ s.WithinRuntime 0 t
      ∧ t.rt.lines[k].state = .idle ∧ t.rt.lines[k].txn = none
      ∧ (∀ v : UnitIx, v ≠ u → t.rt.units[v].run = s.rt.units[v].run)
      ∧ s.LosesUnit k u t ∧ t.rt.units[u].pollMisses = x.pollMisses)
  ∧ (∀ (k : LineIx) (u : UnitIx) (boot : Half) (c : Context) (s : State), s.Replies k u .status (.status boot c) →
    let x := s.rt.units[u]
    x.run = .checking ∨ x.run = .restoring →
    ∃ t, exec (.frameReceived k) s = .next t ∧ s.WithinRuntime 0 t
      ∧ t.rt.lines[k].state = .idle ∧ t.rt.lines[k].txn = none ∧ (∀ v : UnitIx, v ≠ u → t.rt.units[v] = s.rt.units[v])
      ∧ t.rt.units[u].editPending = x.editPending ∧ t.rt.units[u].inFlight = x.inFlight
      ∧ t.rt.units[u].imageValid = x.imageValid ∧ t.rt.units[u].image = x.image
      ∧ (x.run = .checking → x.bootCount = some boot → x.editPending = false →
          t.rt.units[u].run = .running ∧ t.rt.units[u].context = c ∧ t.rt.units[u].contextSeq = x.contextSeq + 1
            ∧ t.rt.units[u].contextPresent = true ∧ t.rt.units[u].bootCount = some boot
            ∧ t.rt.units[u].pollMisses = 0 ∧ t.rt.units[u].pollTimer = some 0 ∧ t.rt.units[u].misses = x.misses)
      ∧ (x.run = .checking → x.bootCount = some boot → x.editPending = true →
          t.rt.units[u].run = .restoring ∧ x.KeepsContext t.rt.units[u] ∧ t.rt.units[u].misses = x.misses
            ∧ s.PostsWork k u (.put .restore) t)
      ∧ (x.run = .checking → x.bootCount ≠ some boot →
          t.rt.units[u].run = .attending ∧ t.rt.units[u].bootTimer = some 0 ∧ x.KeepsContext t.rt.units[u]
            ∧ t.rt.units[u].runClass = (if x.forceCold = true ∨ x.imageValid = false then .cold else .warm)
            ∧ t.rt.units[u].origin = .derived ∧ t.rt.units[u].verdicts = x.verdicts
            ∧ t.rt.units[u].misses = (if x.runClass = .rode then min (x.misses + 1) 65535 else x.misses)
            ∧ s.PostsWork k u .hello t)
      ∧ (x.run = .restoring →
          t.rt.units[u].run = .restoring ∧ x.Adopts c t.rt.units[u] ∧ t.rt.units[u].bootCount = some boot
            ∧ s.PostsWork k u (.put .restore) t))
  ∧ ∀ (k : LineIx) (bytes : List Byte) (f : TxFrame) (x : Transaction) (att : Attempt) (u : UnitIx) (q : Word)
      (c old : Context) (boot : Half) (s : State),
    s.clock.prescaler < 4096 → s.rt.lines[k].state = .receiving → s.rt.lines[k].assembly = .held bytes →
    s.rt.lines[k].abandoned = false → s.rt.lines[k].frame = some f → receivedAddress bytes = f.address →
    receivedSeq bytes = f.seq → replyOf (receivedKind bytes) (receivedPayload bytes) = some (.status boot c) →
    s.rt.lines[k].txn = some x → x.contender = .single u .poll → x.kind = .statusAsk →
    x.attempts.getLast? = some att → att.recorded = some (q, old) →
    s.rt.units[u].run = .running ∨ s.rt.units[u].run = .held →
    s.rt.units[u].bootCount = some boot ∨ s.rt.units[u].bootCount = none →
    ∃ t, exec (.frameReceived k) s = .next t ∧ s.WithinRuntime 0 t ∧ t.rt.units[u].run = s.rt.units[u].run
      ∧ t.rt.units[u].pollMisses = 0 ∧ t.rt.units[u].pollTimer = some 0
      ∧ (s.rt.units[u].editPending = false → q = s.rt.units[u].contextSeq →
          t.rt.units[u].context = c ∧ t.rt.units[u].contextSeq = s.rt.units[u].contextSeq + 1
            ∧ t.rt.units[u].contextPresent = true ∧ t.rt.units[u].bootCount = some boot)
      ∧ (s.rt.units[u].editPending = true ∨ q ≠ s.rt.units[u].contextSeq →
          t.rt.units[u].context = s.rt.units[u].context
            ∧ t.rt.units[u].contextSeq = s.rt.units[u].contextSeq
            ∧ t.rt.units[u].bootCount = s.rt.units[u].bootCount)
      ∧ t.rt.lines[k].state = .idle ∧ t.rt.lines[k].txn = none
      ∧ (∀ v : UnitIx, v ≠ u → t.rt.units[v] = s.rt.units[v])

/-- R30, R60, R63, R67, R69, R70, R71, R112, R129, R152, R153, R154: a first-reply timeout below the attempt limit is
followed at once by the next attempt. At the limit a HELLO_ASK starts its unit's attend timer; a poll counts a miss, and at
the miss limit its unit is lost; the STATUS_ASK of CHECKING leads to ATTENDING with a miss; the STATUS_ASK or the put of
RESTORING fails the run with NO_REPLY, the context and edit-pending kept; a put in RUNNING or HELD loses its unit, the
request it serves answered FAILED; and a load alone, its IMAGE_END included, fails with NO_REPLY and frees its slot. That
force-cold makes the class COLD with image-valid true is the model's reading of R30 (log 20). -/
def Obligations.ReplyTimesOut : Prop :=
  ∀ (k : LineIx) (clk n : Nat) (x : Transaction) (s : State), s.clock.prescaler + clk < 4096 →
    s.rt.lines[k].state = .awaiting → s.rt.lines[k].firstReply = some n →
    s.rt.lines[k].latched.firstReply * (176 * s.rt.lines[k].latched.divisor) ≤ n + clk →
    s.rt.lines[k].txn = some x →
    ∃ t, exec (.firstReplyTimeout k clk) s = .next t ∧ s.WithinRuntime clk t
      ∧ (x.made < x.limit →
          t.rt.units = s.rt.units
            ∧ t.rt.lines[k].state = (if s.rt.lines[k].quietOwed = true then .quiet else .sending)
            ∧ t.rt.lines[k].seqCounter
                = (if s.rt.lines[k].quietOwed = true then s.rt.lines[k].seqCounter else s.rt.lines[k].seqCounter + 1)
            ∧ ∃ y, t.rt.lines[k].txn = some y ∧ y.contender = x.contender ∧ y.kind = x.kind
                ∧ y.made = x.made + 1 ∧ y.lastFailure = some .noReply ∧ y.limit = x.limit)
      ∧ (x.limit ≤ x.made → ∀ u,
          (x.contender = .single u .hello → s.rt.units[u].bootHeld = false → s.rt.units[u].heldWork = none →
            s.rt.units[u].run = .probing ∨ s.rt.units[u].run = .attending →
            t.rt.units[u] = { s.rt.units[u] with attendTimer := some 0 }
              ∧ t.rt.lines[k].state = .idle ∧ t.rt.lines[k].txn = none)
          ∧ (x.contender = .single u .poll → s.rt.units[u].heldWork = none →
            s.rt.units[u].run = .running ∨ s.rt.units[u].run = .held →
            s.rt.units[u].pollMisses + 1 < s.rt.settings.missLimit →
            t.rt.units[u] = { s.rt.units[u] with pollMisses := s.rt.units[u].pollMisses + 1, pollTimer := some 0 }
              ∧ t.rt.lines[k].state = .idle ∧ t.rt.lines[k].txn = none))
      ∧ (x.limit ≤ x.made → ∀ (u : UnitIx) (w : Work), x.contender = .single u w →
          t.rt.lines[k].state = .idle ∧ t.rt.lines[k].txn = none
            ∧ (w ≠ .beginLoad → ∀ v : UnitIx, v ≠ u → t.rt.units[v].run = s.rt.units[v].run)
            ∧ (w = .poll → s.rt.units[u].run = .running ∨ s.rt.units[u].run = .held →
                s.rt.settings.missLimit ≤ s.rt.units[u].pollMisses + 1 →
                s.LosesUnit k u t ∧ t.rt.units[u].pollMisses = s.rt.units[u].pollMisses + 1)
            ∧ (w = .status → s.rt.units[u].run = .checking →
                t.rt.units[u].run = .attending ∧ t.rt.units[u].bootTimer = some 0
                  ∧ (s.rt.units[u]).KeepsContext t.rt.units[u] ∧ t.rt.units[u].origin = .derived
                  ∧ t.rt.units[u].runClass =
                      (if s.rt.units[u].forceCold = true ∨ s.rt.units[u].imageValid = false then .cold else .warm)
                  ∧ t.rt.units[u].misses =
                      (if s.rt.units[u].runClass = .rode then min (s.rt.units[u].misses + 1) 65535
                        else s.rt.units[u].misses)
                  ∧ t.rt.units[u].verdicts = s.rt.units[u].verdicts ∧ s.PostsWork k u .hello t)
            ∧ (w = .status ∨ w = .put .restore → s.rt.units[u].run = .restoring →
                s.FailsUnit u .noReply t ∧ t.rt.units[u].imageValid = s.rt.units[u].imageValid)
            ∧ (w = .put .edit ∨ w = .put .pendingEdit ∨ w = .put .release →
                s.rt.units[u].run = .running ∨ s.rt.units[u].run = .held →
                s.LosesUnit k u t ∧ t.rt.units[u].pollMisses = s.rt.units[u].pollMisses)
            ∧ (w = .imageBegin ∨ w = .block ∨ w = .imageEnd →
                s.FailsUnit u .noReply t
                  ∧ (s.rt.units[u].config.line = k → s.rt.lines[k].slot = .alone u → t.rt.lines[k].slot = .free)))

/-- R114, R115, R119, R121: an inter-character timeout damages the frame in assembly, and its discard begins; at the end
of the discard the damaged count goes up by 1, or, the attempt abandoned, its characters are strays. -/
def Obligations.DamagedFrameIsDiscarded : Prop :=
  ∀ (k : LineIx) (clk : Nat) (s : State), s.clock.prescaler + clk < 4096 → s.rt.lines[k].state = .receiving →
    (∀ bytes n, s.rt.lines[k].assembly = .collecting bytes → s.rt.lines[k].interChar = some n →
      s.rt.lines[k].latched.gapLimit * (176 * s.rt.lines[k].latched.divisor) ≤ n + clk →
      ∃ t, exec (.interCharacterTimeout k clk) s = .next t ∧ s.OnLineAlone k clk t
        ∧ t.rt.lines[k] = { (s.rt.lines[k]).elapse clk with
            assembly := .discarding bytes.length, interChar := none })
    ∧ (∀ n m, s.rt.lines[k].assembly = .discarding n → s.rt.lines[k].silence = some m →
      71 ≤ n ∨ s.rt.lines[k].latched.gapLimit * (176 * s.rt.lines[k].latched.divisor) ≤ m + clk →
      ∃ t, exec (.discardEnd k clk) s = .next t ∧ s.WithinRuntime clk t
        ∧ (s.rt.lines[k].abandoned = false →
            t.rt.lines[k].damaged = min (s.rt.lines[k].damaged + 1) 65535
              ∧ t.rt.lines[k].strays = min (s.rt.lines[k].strays + (s.rt.lines[k].fifo.length
                  + s.rt.lines[k].shift.toList.length)) 65535
              ∧ t.rt.lines[k].fifo = [] ∧ t.rt.lines[k].assembly = .idle
              ∧ (s.rt.lines[k].txn = none → s.OnLineAlone k clk t ∧ t.rt.lines[k].state = .idle))
        ∧ (s.rt.lines[k].abandoned = true → (s.rt.lines[k]).groupRecord = none → s.rt.lines[k].fifo = [] →
            s.rt.lines[k].shift = none →
            s.OnLineAlone k clk t ∧ t.rt.lines[k].state = .idle ∧ t.rt.lines[k].damaged = s.rt.lines[k].damaged
              ∧ t.rt.lines[k].strays = min (s.rt.lines[k].strays + n) 65535))

/-- R107, R111: with the samples of RXD_n that bring the receiver up to date, without a start bit among them, the line
leaves FAULTED for IDLE where RXD_n has then read high for 2 character times, a low sample having set the time to 0; the
quiet-owed flag, the sequence counter and the fault count stay as they were. Where it has not, nothing changes. -/
def Obligations.FaultEnds : Prop :=
  (∀ (k : LineIx) (m : SampledMoment) (n : Nat) (s : State), s.clock.prescaler + m.clk < 4096 →
    s.rt.lines[k].state = .faulted → s.rt.lines[k].receiving = none → s.rt.lines[k].high = some n →
    sampleCount m.samples = (s.rt.lines[k].rxClock + m.clk) / s.rt.lines[k].latched.divisor →
    let high := highAfter s.rt.lines[k].latched.divisor (sampleLevels m.samples) n
    (∀ h, (s.rt.lines[k].hunt).hear (sampleLevels m.samples) = some h →
      2 * (176 * s.rt.lines[k].latched.divisor) ≤ high →
      ∃ t, exec (.highTimerExpiry k m) s = .next t ∧ s.WithinRuntime m.clk t
        ∧ t.rt.lines[k].faults = s.rt.lines[k].faults ∧ t.rt.lines[k].strays = s.rt.lines[k].strays
        ∧ t.rt.lines[k].quietOwed = s.rt.lines[k].quietOwed
        ∧ (s.rt.lines[k].midRound = false →
            s.OnLineAlone k m.clk t ∧ t.rt.lines[k].state = .idle ∧ t.rt.lines[k].high = none
              ∧ t.rt.lines[k].hunt = h
              ∧ t.rt.lines[k].rxClock
                  = s.rt.lines[k].rxClock + m.clk - sampleCount m.samples * s.rt.lines[k].latched.divisor
              ∧ t.rt.lines[k].waitList = s.rt.lines[k].waitList
              ∧ t.rt.lines[k].seqCounter = s.rt.lines[k].seqCounter ∧ t.rt.lines[k].txn = s.rt.lines[k].txn))
    ∧ (high < 2 * (176 * s.rt.lines[k].latched.divisor) → exec (.highTimerExpiry k m) s = .next s))
  ∧ (∀ (n t : Nat) (a b : List Bool), false ∉ b → highAfter n (a ++ false :: b) t = b.length * n)
  ∧ ∀ (n t : Nat) (b : List Bool), false ∉ b → highAfter n b t = t + b.length * n

/-- R124, R125, R130, R136, R138, R157, R160, R161: the arbiter chooses the entry of the highest priority that joined earliest; a unit's work
other than begin work leaves the list and starts as a transaction with the latched configuration now in force and the
limit of its kind. The group entry starts its round: the group frame of the current block to address 15 with the tally to
follow, the next block to repair to its member, or the IMAGE_END of the first member, which enters VERIFYING. -/
def Obligations.ArbiterChooses : Prop :=
  (∀ (k : LineIx) (r : Runtime) (l : List Entry) (e : Entry), r.choose k l = some e →
    e ∈ l ∧ ∀ d ∈ l, r.entryPriority k d ≤ r.entryPriority k e
      ∧ (r.entryPriority k d = r.entryPriority k e → l.idxOf e ≤ l.idxOf d))
  ∧ (∀ (k : LineIx) (u : UnitIx) (w : Work) (s : State), s.clock.prescaler < 4096 → s.rt.lines[k].state = .idle →
    s.rt.lines[k].txn = none → s.rt.lines[k].midRound = false →
    s.rt.choose k s.rt.lines[k].waitList = some (.single u w) → w ≠ .beginLoad →
    ∃ t, exec (.arbiterChoice k) s = .next t ∧ s.WithinRuntime 0 t
      ∧ (t.rt.lines[k]).waits u = false ∧ t.rt.lines[k].latched = s.rt.settings.lines[k]
      ∧ t.rt.lines[k].state = (if s.rt.lines[k].quietOwed = true then .quiet else .sending)
      ∧ (∃ x, t.rt.lines[k].txn = some x ∧ x.contender = .single u w
          ∧ x.address = s.rt.units[u].config.address ∧ x.made = 1
          ∧ x.limit = (if w = .hello ∨ w = .poll then 1 else 1 + s.rt.settings.retryLimit))
      ∧ (w ≠ .imageEnd → t.rt.units = s.rt.units) ∧ (w = .imageEnd → t.rt.units[u].run = .verifying)
      ∧ ∀ j : LineIx, j ≠ k → t.rt.lines[j] = s.rt.lines[j])
  ∧ (∀ (k : LineIx) (u : UnitIx) (s : State), s.clock.prescaler < 4096 → s.rt.lines[k].state = .faulted →
    s.rt.lines[k].txn = none → s.rt.lines[k].midRound = false →
    s.rt.choose k s.rt.lines[k].waitList = some (.single u .hello) →
    s.rt.units[u].bootHeld = false → s.rt.units[u].heldWork = none →
    s.rt.units[u].run = .probing ∨ s.rt.units[u].run = .attending →
    ∃ t, exec (.arbiterChoice k) s = .next t ∧ s.WithinRuntime 0 t
      ∧ t.rt.units[u] = { s.rt.units[u] with attendTimer := some 0 }
      ∧ t.rt.lines[k].txn = none ∧ t.rt.lines[k].state = .faulted
      ∧ t.rt.lines[k].seqCounter = s.rt.lines[k].seqCounter)
  ∧ ∀ (k : LineIx) (g : Group) (s : State), s.clock.prescaler < 4096 → s.rt.lines[k].state = .idle →
    s.rt.lines[k].txn = none → s.rt.lines[k].slot = .group g → g.inRound = false → g.members ≠ [] →
    (g.members.map Member.unit).Nodup →
    s.rt.choose k s.rt.lines[k].waitList = some .group →
    let begun := if s.rt.lines[k].quietOwed = true then LineState.quiet else .sending
    ∃ t, exec (.arbiterChoice k) s = .next t ∧ s.WithinRuntime 0 t
      ∧ (∀ j : LineIx, j ≠ k → t.rt.lines[j] = s.rt.lines[j]) ∧ Entry.group ∉ t.rt.lines[k].waitList
      ∧ (g.phase = .blocks →
          t.rt.lines[k].slot = .group { g with inRound := true, todo := g.members.map fun m => some m.unit }
            ∧ t.rt.lines[k].state = begun ∧ t.rt.lines[k].latched = s.rt.settings.lines[k] ∧ t.rt.units = s.rt.units
            ∧ (∃ x, t.rt.lines[k].txn = some x ∧ x.contender = .group none ∧ x.kind = .imageBlock ∧ x.address = 15
                ∧ x.block = g.block ∧ x.limit = 1 ∧ x.made = 1)
            ∧ (∀ data, (s.rt.lines[k]).heldBlock g.block = some data → s.rt.lines[k].quietOwed = false →
                (∃ f, t.rt.lines[k].frame = some f ∧ f.address = 15 ∧ f.kind = .imageBlock ∧ f.pause = 2
                    ∧ f.replyExpected = false ∧ f.seq = s.rt.lines[k].seqCounter
                    ∧ f.payload = halfBytesHigh (BitVec.ofNat 16 g.block) ++ [g.tag] ++ data)
                  ∧ (g.block + 1 < g.image.blockCount →
                      ∃ q, t.rt.fetchList = s.rt.fetchList ++ [q] ∧ q.line = k ∧ q.block = g.block + 1
                        ∧ q.firstPass = true)
                  ∧ (g.image.blockCount ≤ g.block + 1 → t.rt.fetchList = s.rt.fetchList)))
      ∧ (∀ v b, g.phase = .repair → g.nextRepair = some (v, b) → ((s.rt.lines[k]).heldBlock b).isSome = true →
          t.rt.lines[k].slot = .group { g with inRound := true, todo := [] } ∧ t.rt.lines[k].state = begun
            ∧ t.rt.units = s.rt.units
            ∧ ∃ x, t.rt.lines[k].txn = some x ∧ x.contender = .group (some v) ∧ x.kind = .imageBlock
                ∧ x.address = s.rt.units[v].config.address ∧ x.block = b ∧ x.limit = 1 + s.rt.settings.retryLimit
                ∧ x.made = 1)
      ∧ (∀ m rest, g.phase = .ending → g.members = m :: rest →
          t.rt.lines[k].slot = .group { g with inRound := true, todo := [] } ∧ t.rt.lines[k].state = begun
            ∧ t.rt.units[m.unit].run = .verifying ∧ (∀ v : UnitIx, v ≠ m.unit → t.rt.units[v] = s.rt.units[v])
            ∧ ∃ x, t.rt.lines[k].txn = some x ∧ x.contender = .group (some m.unit) ∧ x.kind = .imageEnd
                ∧ x.address = s.rt.units[m.unit].config.address ∧ x.limit = 1 + s.rt.settings.retryLimit
                ∧ x.made = 1)

/-- R147, R148, R150, R151, R152, R153, R154, R155, R156, R164, R166, R168: begin work whose unit loads alone takes the
slot: the image is latched, the running CRC-32 restarts, block 0 is asked for and the IMAGE_BEGIN starts; other begin
work leaves the list. With a group tag and no alone mark, the units on the list with begin work for the same tag and
image that are not marked alone join it in a group where their latches pass, and the IMAGE_BEGIN of the first member
starts; a unit whose latch fails is FAILED with IMAGE_CHANGED, and with no other unit taken the chosen one loads alone.
For a unit loading alone the ACK of its IMAGE_BEGIN counts the load and sets its progress to 0; BLOCK_OK confirms a
block, empties its buffer and, after the last, frees the slot and posts the IMAGE_END, behind the begin works that then
join (log 36); the next block is posted where it is held, else waited for; BLOCK_BAD fails the attempt, and at the limit
the run, with BLOCK_REJECTED. -/
def Obligations.LoadAloneBegins : Prop :=
  (∀ (k : LineIx) (u : UnitIx) (s : State), s.clock.prescaler < 4096 → s.rt.lines[k].state = .idle →
    s.rt.lines[k].txn = none → s.rt.lines[k].slot = .free →
    s.rt.choose k s.rt.lines[k].waitList = some (.single u .beginLoad) → s.rt.units[u].config.line = k →
    let image := latchedImage s.rt.units[u].config.image s.rt.directory[s.rt.units[u].config.image]
    ∃ t, exec (.arbiterChoice k) s = .next t ∧ s.WithinRuntime 0 t
      ∧ (s.rt.unitLatchable u = false →
          t.rt.units[u].run = .failed ∧ t.rt.units[u].cause = .imageChanged ∧ t.rt.lines[k].slot = .free
            ∧ t.rt.lines[k].txn = none ∧ t.rt.lines[k].state = .idle ∧ (t.rt.lines[k]).waits u = false)
      ∧ (s.rt.unitLatchable u = true → s.rt.units[u].config.groupTag ≠ 0 → s.rt.units[u].aloneMark = false →
          ∀ takes : UnitIx → Bool,
          (∀ v : UnitIx, takes v = true ↔ v ≠ u ∧ Entry.single v .beginLoad ∈ s.rt.lines[k].waitList
            ∧ s.rt.units[v].aloneMark = false ∧ s.rt.units[v].config.groupTag = s.rt.units[u].config.groupTag
            ∧ s.rt.units[v].config.image = s.rt.units[u].config.image) →
          (∀ v : UnitIx, takes v = true → s.rt.unitLatchable v = false →
            t.rt.units[v].run = .failed ∧ t.rt.units[v].cause = .imageChanged)
          ∧ t.rt.lines[k].crc = some 0xFFFFFFFF ∧ t.rt.lines[k].buffer0 = none ∧ t.rt.lines[k].buffer1 = none
          ∧ (∃ q ∈ t.rt.fetchList, q.line = k ∧ q.block = 0 ∧ q.firstPass = true ∧ q.address = image.address)
          ∧ t.rt.units[u].image = image
          ∧ (∀ v : UnitIx, Entry.single v .beginLoad ∉ t.rt.lines[k].waitList)
          ∧ (∀ v : UnitIx, v ≠ u → takes v = false → Entry.single v .beginLoad ∈ s.rt.lines[k].waitList →
              t.rt.units[v].loadStep = .slotWait)
          ∧ ((∀ v : UnitIx, takes v = true → s.rt.unitLatchable v = false) →
              t.rt.lines[k].slot = .alone u ∧ t.rt.units[u].loadStep = .alone
                ∧ ∃ x, t.rt.lines[k].txn = some x ∧ x.contender = .single u .imageBegin)
          ∧ (∀ first rest, (∃ v : UnitIx, takes v = true ∧ s.rt.unitLatchable v = true) →
              (List.finRange 32).filter (fun v : UnitIx => decide (v = u) || takes v && s.rt.unitLatchable v)
                = first :: rest →
              t.rt.lines[k].slot = .group
                  { members := (first :: rest).map fun v => { unit := v, missed := [], silence := 0 }
                    tag := s.rt.units[u].config.groupTag, image := image, phase := .begin, block := 0, inRound := true
                    todo := rest.map some }
                ∧ (∀ v ∈ first :: rest, t.rt.units[v].loadStep = .member ∧ t.rt.units[v].image = image
                    ∧ t.rt.units[v].run = s.rt.units[v].run ∧ (t.rt.lines[k]).waits v = false)
                ∧ t.rt.lines[k].state = (if s.rt.lines[k].quietOwed = true then .quiet else .sending)
                ∧ ∃ x, t.rt.lines[k].txn = some x ∧ x.contender = .group (some first) ∧ x.kind = .imageBegin
                    ∧ x.address = s.rt.units[first].config.address ∧ x.limit = 1 + s.rt.settings.retryLimit
                    ∧ x.made = 1)))
  ∧ (∀ (k : LineIx) (u : UnitIx) (s : State), s.clock.prescaler < 4096 → s.rt.lines[k].state = .idle →
    s.rt.lines[k].txn = none → s.rt.lines[k].slot = .free →
    s.rt.choose k s.rt.lines[k].waitList = some (.single u .beginLoad) → s.rt.units[u].config.line = k →
    s.rt.units[u].config.groupTag = 0 ∨ s.rt.units[u].aloneMark = true →
    s.rt.suspect[s.rt.units[u].config.image] = none →
    directoryValid s.rt.directory[s.rt.units[u].config.image] = true →
    kindOfCode s.rt.directory[s.rt.units[u].config.image].kindCode = s.rt.units[u].config.kind →
    ∃ t, exec (.arbiterChoice k) s = .next t ∧ s.WithinRuntime 0 t
      ∧ t.rt.lines[k].slot = .alone u ∧ t.rt.units[u].loadStep = .alone
      ∧ t.rt.units[u].image
          = latchedImage s.rt.units[u].config.image s.rt.directory[s.rt.units[u].config.image]
      ∧ t.rt.lines[k].crc = some 0xFFFFFFFF ∧ t.rt.lines[k].buffer0 = none ∧ t.rt.lines[k].buffer1 = none
      ∧ (∃ q, t.rt.fetchList = s.rt.fetchList ++ [q] ∧ q.line = k ∧ q.block = 0 ∧ q.firstPass = true)
      ∧ (∃ x, t.rt.lines[k].txn = some x ∧ x.contender = .single u .imageBegin ∧ x.kind = .imageBegin
          ∧ x.limit = 1 + s.rt.settings.retryLimit)
      ∧ (∀ v : UnitIx, Entry.single v .beginLoad ∉ t.rt.lines[k].waitList))
  ∧ ∀ (k : LineIx) (u : UnitIx) (w : Work) (rep : Reply) (s : State), s.Replies k u w rep →
    s.rt.units[u].run = .loading → s.rt.units[u].config.line = k → s.rt.lines[k].slot = .alone u →
    let x := s.rt.units[u]
    let n := x.confirmed + 1
    let next := fun (b : Nat) (t : State) =>
      t.rt.lines[k].slot = .alone u ∧ t.rt.units[u].loadStep = x.loadStep
        ∧ (((s.rt.lines[k]).heldBlock b).isSome = true → s.PostsWork k u .block t)
        ∧ (((s.rt.lines[k]).heldBlock b).isSome = false →
            t.rt.lines[k].waitBlock = some b ∧ t.rt.lines[k].waitList = s.rt.lines[k].waitList)
    (w = .imageBegin → rep = .ack →
      ∃ t, exec (.frameReceived k) s = .next t ∧ s.WithinRuntime 0 t
        ∧ t.rt.lines[k].state = .idle ∧ t.rt.lines[k].txn = none ∧ t.rt.units[u].run = .loading
        ∧ (∀ v : UnitIx, v ≠ u → t.rt.units[v] = s.rt.units[v])
        ∧ t.rt.units[u].loads = min (x.loads + 1) 65535 ∧ t.rt.units[u].confirmed = 0
        ∧ t.rt.units[u].progressDone = 0 ∧ t.rt.units[u].progressTotal = x.image.blockCount
        ∧ (s.rt.mode ≠ .stopped → Item.unitResult u ∈ t.rt.queue) ∧ next 0 t)
    ∧ (w = .block → rep = .blockOk x.confirmed →
      ∃ t, exec (.frameReceived k) s = .next t ∧ s.WithinRuntime 0 t
        ∧ t.rt.lines[k].state = .idle ∧ t.rt.lines[k].txn = none ∧ t.rt.units[u].run = .loading
        ∧ (∀ v : UnitIx, v ≠ u → t.rt.units[v].run = s.rt.units[v].run)
        ∧ t.rt.units[u].confirmed = n ∧ (t.rt.lines[k]).heldBlock x.confirmed = none
        ∧ t.rt.units[u].progressDone = (if n % 16 = 0 ∨ n = x.image.blockCount then n else x.progressDone)
        ∧ (n < x.image.blockCount → next n t ∧ ∀ v : UnitIx, v ≠ u → t.rt.units[v] = s.rt.units[v])
        ∧ (x.image.blockCount ≤ n →
            t.rt.lines[k].slot = .free ∧ t.rt.units[u].loadStep = .ending ∧ t.rt.lines[k].buffer0 = none
              ∧ t.rt.lines[k].buffer1 = none ∧ t.rt.lines[k].crc = none ∧ (∀ q ∈ t.rt.fetchList, q.line ≠ k)
              ∧ Entry.single u .imageEnd ∈ t.rt.lines[k].waitList
              ∧ ((s.rt.lines[k]).waits u = false → t.rt.lines[k].waitList.getLast? = some (.single u .imageEnd))
              ∧ ∀ v : UnitIx, v ≠ u → s.rt.units[v].loadStep = .slotWait → s.rt.units[v].config.line = k →
                  t.rt.units[v].loadStep = .beginPosted ∧ Entry.single v .beginLoad ∈ t.rt.lines[k].waitList))
    ∧ ∀ b y, w = .block → rep = .blockBad b → s.rt.lines[k].txn = some y →
      ∃ t, exec (.frameReceived k) s = .next t ∧ s.WithinRuntime 0 t
        ∧ (y.made < y.limit → t.rt.units = s.rt.units ∧ t.rt.lines[k].slot = .alone u
            ∧ t.rt.lines[k].state = (if s.rt.lines[k].quietOwed = true then .quiet else .sending)
            ∧ ∃ z, t.rt.lines[k].txn = some z ∧ z.contender = .single u .block ∧ z.kind = .imageBlock
                ∧ z.block = y.block ∧ z.made = y.made + 1 ∧ z.lastFailure = some .blockBad ∧ z.limit = y.limit)
        ∧ (y.limit ≤ y.made → s.FailsUnit u .blockRejected t ∧ t.rt.lines[k].slot = .free
            ∧ t.rt.lines[k].state = .idle ∧ t.rt.lines[k].txn = none)

/-- R64, R135, R156, R157, R158, R159, R160, R161, R162, R163, R164, R168: how the answer to a BLOCK_ASK of a tally
moves its member's missed list and silence count, and when it takes the member out of the group, which is dissolved with
its last member; what an exchange of the begin round, of a repair round and of an END round makes of its member; and
what follows a round. Where the last member leaves after its VERDICT GOOD, its restoring work joins before the begin
works of the units at SLOT_WAIT, as in section 10.2; where it leaves for another load, its begin work joins among theirs
in ascending index (log 27). -/
def Obligations.TallyIsTaken : Prop :=
  (∀ (k : LineIx) (u : UnitIx) (g : Group) (m : Member) (r : Runtime), (r.lines[k]).slot = .group g →
    g.members.find? (fun x => decide (x.unit = u)) = some m → r.units[u].config.line = k →
    let out := fun t : Runtime =>
      (t.lines[k]).groupRecord = if (g.without u).members = [] then none else some (g.without u)
    let others := fun v : UnitIx => v ≠ u ∧ r.units[v].loadStep = .slotWait ∧ r.units[v].config.line = k
    let begins := fun own : Bool =>
      ((List.finRange 32).filter fun v : UnitIx => decide (own = true ∧ v = u ∨ others v)).map (Entry.single · .beginLoad)
    let last := (g.without u).members = [] ∧ (r.lines[k]).txn = none ∧ (r.lines[k]).waits u = false
      ∧ ∀ v : UnitIx, others v → (r.lines[k]).waits v = false
    let left := (r.lines[k]).waitList.filter fun e => decide (e ≠ .group)
    let steps := fun t : Runtime =>
      t.units[u].loadStep = (if (g.without u).members = [] then .beginPosted else .slotWait)
        ∧ (last → t.lines[k].waitList = left ++ begins true)
    let alone := fun t : Runtime => out t ∧ t.units[u].aloneMark = true
      ∧ (r.mode = .areaFault → t.units[u].run = .failed ∧ t.units[u].cause = .area)
      ∧ (r.mode ≠ .areaFault → t.units[u].run = r.units[u].run ∧ steps t)
    let fails := fun (c : FailureCause) (t : Runtime) => out t ∧ t.units[u].run = .failed ∧ t.units[u].cause = c
    (∀ v, (v ∈ (g.without u).members ↔ v ∈ g.members ∧ v.unit ≠ u))
    ∧ (r.tally k u g (.reply (.blockOk g.block))
        = (r.setGroup k (g.updMember u fun x => { x with silence := 0 })).updUnit u UnitRecord.confirm)
    ∧ (m.missed.length < 16 →
        r.tally k u g (.reply (.blockBad g.block))
            = r.setGroup k (g.updMember u fun x => { x with missed := x.missed ++ [g.block], silence := 0 })
          ∧ r.tally k u g (.failed .damaged)
            = r.setGroup k (g.updMember u fun x => { x with missed := x.missed ++ [g.block], silence := m.silence })
          ∧ r.tally k u g (.failed .lineFault) = r.tally k u g (.failed .damaged)
          ∧ (m.silence < 2 → r.tally k u g (.failed .noReply)
            = r.setGroup k (g.updMember u fun x =>
                { x with missed := x.missed ++ [g.block], silence := m.silence + 1 })))
    ∧ (2 ≤ m.silence → fails .noReply (r.tally k u g (.failed .noReply)))
    ∧ (16 ≤ m.missed.length →
        alone (r.tally k u g (.reply (.blockBad g.block))) ∧ alone (r.tally k u g (.failed .damaged))
          ∧ alone (r.tally k u g (.failed .lineFault))
          ∧ (m.silence < 2 → alone (r.tally k u g (.failed .noReply))))
    ∧ fails .protocol (r.tally k u g .protocol)
    ∧ (g.phase = .blocks → ∀ e, r.memberEnd k u g e = r.tally k u g e)
    ∧ (g.phase = .begin →
        (let t := r.memberEnd k u g (.reply .ack);
          t.lines = r.lines ∧ t.units[u].loads = min (r.units[u].loads + 1) 65535 ∧ t.units[u].confirmed = 0
            ∧ t.units[u].progressDone = 0 ∧ t.units[u].progressTotal = r.units[u].image.blockCount
            ∧ (r.mode ≠ .stopped → Item.unitResult u ∈ t.queue))
        ∧ (∀ f, alone (r.memberEnd k u g (.failed f))) ∧ fails .protocol (r.memberEnd k u g .protocol))
    ∧ (g.phase = .repair →
        (∀ b, r.memberEnd k u g (.reply (.blockOk b))
          = (r.setGroup k (g.updMember u fun x => { x with missed := x.missed.filter fun y => decide (y ≠ b) })).updUnit u
              UnitRecord.confirm)
        ∧ fails .noReply (r.memberEnd k u g (.failed .noReply)) ∧ fails .damaged (r.memberEnd k u g (.failed .damaged))
        ∧ fails .lineFault (r.memberEnd k u g (.failed .lineFault))
        ∧ fails .blockRejected (r.memberEnd k u g (.failed .blockBad))
        ∧ fails .protocol (r.memberEnd k u g .protocol))
    ∧ (g.phase = .ending →
        (∀ e, out (r.memberEnd k u g e))
        ∧ (let t := r.memberEnd k u g (.reply (.verdict true))
          t.units[u].run = .restoring ∧ t.units[u].imageValid = true ∧ t.units[u].forceCold = false
            ∧ (last → t.lines[k].waitList = left ++ Entry.single u
                (if r.units[u].probePending = true ∧ r.units[u].contextPresent = false then .status
                  else .put .restore) :: begins false))
        ∧ (let t := r.memberEnd k u g (.reply (.verdict false))
          (r.units[u].verdicts = 0 → r.mode = .areaFault → t.units[u].run = .failed ∧ t.units[u].cause = .area)
          ∧ (r.units[u].verdicts = 0 → r.mode ≠ .areaFault →
              t.units[u].run = .loading ∧ t.units[u].imageValid = false ∧ t.units[u].verdicts = 1 ∧ steps t)
          ∧ (1 ≤ r.units[u].verdicts → t.units[u].run = .failed ∧ t.units[u].cause = .imageBad))
        ∧ fails .noReply (r.memberEnd k u g (.failed .noReply)) ∧ fails .damaged (r.memberEnd k u g (.failed .damaged))
        ∧ fails .lineFault (r.memberEnd k u g (.failed .lineFault)) ∧ fails .protocol (r.memberEnd k u g .protocol)))
  ∧ ∀ (k : LineIx) (g : Group) (r : Runtime), (r.lines[k]).slot = .group g →
    let t := r.endRound k
    let ended := { g with inRound := false, todo := [] }
    let awaits := fun b : Nat =>
      (((r.lines[k]).heldBlock b).isSome = true → Entry.group ∈ t.lines[k].waitList)
        ∧ (((r.lines[k]).heldBlock b).isSome = false →
            t.lines[k].waitBlock = some b ∧ t.lines[k].waitList = r.lines[k].waitList)
    let ends := t.lines[k].slot = .group { ended with phase := .ending } ∧ Entry.group ∈ t.lines[k].waitList
      ∧ t.fetchList = r.fetchList
    let repairs := fun b : Nat => t.lines[k].slot = .group { ended with phase := .repair }
      ∧ ∃ q, t.fetchList = r.fetchList ++ [q] ∧ q.line = k ∧ q.block = b ∧ q.firstPass = false
    (g.phase = .begin → t.lines[k].slot = .group { ended with phase := .blocks, block := 0 } ∧ awaits 0)
    ∧ (g.phase = .blocks → (t.lines[k]).heldBlock g.block = none
        ∧ (g.block + 1 < g.image.blockCount →
            t.lines[k].slot = .group { ended with block := g.block + 1 } ∧ awaits (g.block + 1))
        ∧ (g.image.blockCount ≤ g.block + 1 → g.nextRepair = none → ends)
        ∧ (∀ v b, g.image.blockCount ≤ g.block + 1 → g.nextRepair = some (v, b) → repairs b))
    ∧ (g.phase = .repair → t.lines[k].buffer0 = none ∧ t.lines[k].buffer1 = none
        ∧ (g.nextRepair = none → ends)
        ∧ (∀ v b, g.nextRepair = some (v, b) → repairs b ∧ t.lines[k].waitBlock = some b))
    ∧ (g.phase = .ending → ends)

/-- R107, R108, R111, R112, R114, R115: a candidate start bit begins with the first low sample after a high one and is
confirmed by its eighth sample alone, a high one dropping it; that the first low sample counts as the first of the eight is
the model's reading (log 7); after a low stop bit RXD_n must first read high. With the
samples up to a confirmation an AWAITING line enters RECEIVING with the first-reply timer held, the inter-character and
silence timers stop, the high timer restarts, and a character that waits for room is lost, counting it as an overrun. -/
def Obligations.StartBitIsConfirmed : Prop :=
  (∀ (x : List Bool) (last : Bool), x.length = 6 →
    Hunt.confirms (false :: x ++ [last]) .high = !last
      ∧ Hunt.hear (false :: x ++ [last]) .high = (if last = true then some .high else none)
      ∧ Hunt.hear (false :: x) .high = some (.candidate 7)
      ∧ ∀ n, Hunt.confirms (List.replicate n true ++ false :: x ++ [false]) .high = true
          ∧ Hunt.confirms (List.replicate n false ++ true :: false :: x ++ [false]) .waitHigh = true
          ∧ Hunt.hear (List.replicate n false) .waitHigh = some .waitHigh)
  ∧ ∀ (k : LineIx) (m : SampledMoment) (s : State), s.clock.prescaler + m.clk < 4096 →
    s.rt.lines[k].state ≠ .stopped → s.rt.lines[k].receiving = none →
    sampleCount m.samples = (s.rt.lines[k].rxClock + m.clk) / s.rt.lines[k].latched.divisor →
    (s.rt.lines[k].hunt).confirms (sampleLevels m.samples) = true →
    ∃ t, exec (.startBitConfirmed k m) s = .next t ∧ s.OnLineAlone k m.clk t
      ∧ t.rt.lines[k] = { (s.rt.lines[k]).elapse m.clk with
          state := if s.rt.lines[k].state = .awaiting then .receiving else s.rt.lines[k].state
          receiving := some s.rt.lines[k].shift.isSome, shift := none
          rxClock := (s.rt.lines[k].rxClock + m.clk) % s.rt.lines[k].latched.divisor
          overruns := if s.rt.lines[k].shift.isSome = true then min (s.rt.lines[k].overruns + 1) 65535
            else s.rt.lines[k].overruns
          interChar := none, silence := none, high := s.rt.lines[k].high.map fun _ => 0 }
end

