-- ==== Sys2Proof/Laws/State.lean ====
section
/-! SUPPORT. What each update of the state, of the runtime and of its records does to each field, so that no proof
unfolds an update. -/

namespace Sys2Proof

namespace Machine

/-! ### The state -/

@[simp] theorem State.onRt_clock (f : Runtime → Runtime) (s : State) : (s.onRt f).clock = s.clock := rfl
@[simp] theorem State.onRt_monitor (f : Runtime → Runtime) (s : State) : (s.onRt f).monitor = s.monitor := rfl
@[simp] theorem State.onRt_feeds (f : Runtime → Runtime) (s : State) : (s.onRt f).feeds = s.feeds := rfl
@[simp] theorem State.onRt_rt (f : Runtime → Runtime) (s : State) : (s.onRt f).rt = f s.rt := rfl
@[simp] theorem State.onRt_port (f : Runtime → Runtime) (s : State) : (s.onRt f).port = s.port := rfl
@[simp] theorem State.onRt_due (f : Runtime → Runtime) (s : State) : (s.onRt f).due = s.due := rfl
@[simp] theorem State.onRt_pending (f : Runtime → Runtime) (s : State) : (s.onRt f).pending = s.pending := rfl

@[simp] theorem State.raise_clock (e : Event) (s : State) : (s.raise e).clock = s.clock := rfl
@[simp] theorem State.raise_monitor (e : Event) (s : State) : (s.raise e).monitor = s.monitor := rfl
@[simp] theorem State.raise_feeds (e : Event) (s : State) : (s.raise e).feeds = s.feeds := rfl
@[simp] theorem State.raise_rt (e : Event) (s : State) : (s.raise e).rt = s.rt := rfl
@[simp] theorem State.raise_port (e : Event) (s : State) : (s.raise e).port = { s.port with events := s.port.events ||| eventBit e } := rfl
@[simp] theorem State.raise_due (e : Event) (s : State) : (s.raise e).due = s.due := rfl
@[simp] theorem State.raise_pending (e : Event) (s : State) : (s.raise e).pending = s.pending := rfl

@[simp] theorem State.setFeeds_clock (fc : FeedControl) (s : State) : (s.setFeeds fc).clock = s.clock := rfl
@[simp] theorem State.setFeeds_monitor (fc : FeedControl) (s : State) : (s.setFeeds fc).monitor = s.monitor := rfl
@[simp] theorem State.setFeeds_feeds (fc : FeedControl) (s : State) : (s.setFeeds fc).feeds = fc := rfl
@[simp] theorem State.setFeeds_rt (fc : FeedControl) (s : State) : (s.setFeeds fc).rt = s.rt.handFeeds s.feeds fc := rfl
@[simp] theorem State.setFeeds_port (fc : FeedControl) (s : State) : (s.setFeeds fc).port = s.port := rfl
@[simp] theorem State.setFeeds_due (fc : FeedControl) (s : State) : (s.setFeeds fc).due = s.due := rfl
@[simp] theorem State.setFeeds_pending (fc : FeedControl) (s : State) : (s.setFeeds fc).pending = s.pending := rfl

@[simp] theorem State.elapse_clock (dt : Nat) (s : State) : (s.elapse dt).clock = { s.clock with prescaler := s.clock.prescaler + dt } := rfl
@[simp] theorem State.elapse_monitor (dt : Nat) (s : State) : (s.elapse dt).monitor = s.monitor := rfl
@[simp] theorem State.elapse_feeds (dt : Nat) (s : State) : (s.elapse dt).feeds = s.feeds := rfl
@[simp] theorem State.elapse_rt (dt : Nat) (s : State) : (s.elapse dt).rt = { s.rt with lines := s.rt.lines.map (LineRecord.elapse dt) } := rfl
@[simp] theorem State.elapse_port (dt : Nat) (s : State) : (s.elapse dt).port = s.port := rfl
@[simp] theorem State.elapse_due (dt : Nat) (s : State) : (s.elapse dt).due = s.due := rfl
@[simp] theorem State.elapse_pending (dt : Nat) (s : State) : (s.elapse dt).pending = s.pending := rfl

/-! ### The runtime's primitive changes: of the write queue alone, and of one record -/

@[simp] theorem Runtime.enqueue_units (i : Item) (r : Runtime) :
    (r.enqueue i).units = r.units := by
  unfold Runtime.enqueue; split <;> try split
  all_goals rfl

@[simp] theorem Runtime.enqueue_lines (i : Item) (r : Runtime) :
    (r.enqueue i).lines = r.lines := by
  unfold Runtime.enqueue; split <;> try split
  all_goals rfl

@[simp] theorem Runtime.enqueue_directory (i : Item) (r : Runtime) :
    (r.enqueue i).directory = r.directory := by
  unfold Runtime.enqueue; split <;> try split
  all_goals rfl

@[simp] theorem Runtime.enqueue_suspect (i : Item) (r : Runtime) :
    (r.enqueue i).suspect = r.suspect := by
  unfold Runtime.enqueue; split <;> try split
  all_goals rfl

@[simp] theorem Runtime.enqueue_fetchList (i : Item) (r : Runtime) :
    (r.enqueue i).fetchList = r.fetchList := by
  unfold Runtime.enqueue; split <;> try split
  all_goals rfl

@[simp] theorem Runtime.enqueue_read (i : Item) (r : Runtime) :
    (r.enqueue i).read = r.read := by
  unfold Runtime.enqueue; split <;> try split
  all_goals rfl

@[simp] theorem Runtime.enqueue_mode (i : Item) (r : Runtime) :
    (r.enqueue i).mode = r.mode := by
  unfold Runtime.enqueue; split <;> try split
  all_goals rfl

@[simp] theorem Runtime.enqueue_settings (i : Item) (r : Runtime) :
    (r.enqueue i).settings = r.settings := by
  unfold Runtime.enqueue; split <;> try split
  all_goals rfl

@[simp] theorem Runtime.setUnit_units (u : UnitIx) (x : UnitRecord) (r : Runtime) :
    (r.setUnit u x).units = r.units.set u x := by
  unfold Runtime.setUnit; split <;> simp

@[simp] theorem Runtime.setUnit_lines (u : UnitIx) (x : UnitRecord) (r : Runtime) :
    (r.setUnit u x).lines = r.lines := by
  unfold Runtime.setUnit; split <;> simp

@[simp] theorem Runtime.setUnit_directory (u : UnitIx) (x : UnitRecord) (r : Runtime) :
    (r.setUnit u x).directory = r.directory := by
  unfold Runtime.setUnit; split <;> simp

@[simp] theorem Runtime.setUnit_suspect (u : UnitIx) (x : UnitRecord) (r : Runtime) :
    (r.setUnit u x).suspect = r.suspect := by
  unfold Runtime.setUnit; split <;> simp

@[simp] theorem Runtime.setUnit_fetchList (u : UnitIx) (x : UnitRecord) (r : Runtime) :
    (r.setUnit u x).fetchList = r.fetchList := by
  unfold Runtime.setUnit; split <;> simp

@[simp] theorem Runtime.setUnit_read (u : UnitIx) (x : UnitRecord) (r : Runtime) :
    (r.setUnit u x).read = r.read := by
  unfold Runtime.setUnit; split <;> simp

@[simp] theorem Runtime.setUnit_mode (u : UnitIx) (x : UnitRecord) (r : Runtime) :
    (r.setUnit u x).mode = r.mode := by
  unfold Runtime.setUnit; split <;> simp

@[simp] theorem Runtime.setUnit_settings (u : UnitIx) (x : UnitRecord) (r : Runtime) :
    (r.setUnit u x).settings = r.settings := by
  unfold Runtime.setUnit; split <;> simp

@[simp] theorem Runtime.updUnit_units (u : UnitIx) (f : UnitRecord → UnitRecord) (r : Runtime) :
    (r.updUnit u f).units = r.units.set u (f r.units[u]) := by
  simp [Runtime.updUnit]

@[simp] theorem Runtime.updUnit_lines (u : UnitIx) (f : UnitRecord → UnitRecord) (r : Runtime) :
    (r.updUnit u f).lines = r.lines := by
  simp [Runtime.updUnit]

@[simp] theorem Runtime.updUnit_directory (u : UnitIx) (f : UnitRecord → UnitRecord) (r : Runtime) :
    (r.updUnit u f).directory = r.directory := by
  simp [Runtime.updUnit]

@[simp] theorem Runtime.updUnit_suspect (u : UnitIx) (f : UnitRecord → UnitRecord) (r : Runtime) :
    (r.updUnit u f).suspect = r.suspect := by
  simp [Runtime.updUnit]

@[simp] theorem Runtime.updUnit_fetchList (u : UnitIx) (f : UnitRecord → UnitRecord) (r : Runtime) :
    (r.updUnit u f).fetchList = r.fetchList := by
  simp [Runtime.updUnit]

@[simp] theorem Runtime.updUnit_read (u : UnitIx) (f : UnitRecord → UnitRecord) (r : Runtime) :
    (r.updUnit u f).read = r.read := by
  simp [Runtime.updUnit]

@[simp] theorem Runtime.updUnit_mode (u : UnitIx) (f : UnitRecord → UnitRecord) (r : Runtime) :
    (r.updUnit u f).mode = r.mode := by
  simp [Runtime.updUnit]

@[simp] theorem Runtime.updUnit_settings (u : UnitIx) (f : UnitRecord → UnitRecord) (r : Runtime) :
    (r.updUnit u f).settings = r.settings := by
  simp [Runtime.updUnit]

@[simp] theorem Runtime.setLine_units (k : LineIx) (l : LineRecord) (r : Runtime) :
    (r.setLine k l).units = r.units := by
  unfold Runtime.setLine; split <;> simp

@[simp] theorem Runtime.setLine_lines (k : LineIx) (l : LineRecord) (r : Runtime) :
    (r.setLine k l).lines = r.lines.set k l := by
  unfold Runtime.setLine; split <;> simp

@[simp] theorem Runtime.setLine_directory (k : LineIx) (l : LineRecord) (r : Runtime) :
    (r.setLine k l).directory = r.directory := by
  unfold Runtime.setLine; split <;> simp

@[simp] theorem Runtime.setLine_suspect (k : LineIx) (l : LineRecord) (r : Runtime) :
    (r.setLine k l).suspect = r.suspect := by
  unfold Runtime.setLine; split <;> simp

@[simp] theorem Runtime.setLine_fetchList (k : LineIx) (l : LineRecord) (r : Runtime) :
    (r.setLine k l).fetchList = r.fetchList := by
  unfold Runtime.setLine; split <;> simp

@[simp] theorem Runtime.setLine_read (k : LineIx) (l : LineRecord) (r : Runtime) :
    (r.setLine k l).read = r.read := by
  unfold Runtime.setLine; split <;> simp

@[simp] theorem Runtime.setLine_mode (k : LineIx) (l : LineRecord) (r : Runtime) :
    (r.setLine k l).mode = r.mode := by
  unfold Runtime.setLine; split <;> simp

@[simp] theorem Runtime.setLine_settings (k : LineIx) (l : LineRecord) (r : Runtime) :
    (r.setLine k l).settings = r.settings := by
  unfold Runtime.setLine; split <;> simp

@[simp] theorem Runtime.updLine_units (k : LineIx) (f : LineRecord → LineRecord) (r : Runtime) :
    (r.updLine k f).units = r.units := by
  simp [Runtime.updLine]

@[simp] theorem Runtime.updLine_lines (k : LineIx) (f : LineRecord → LineRecord) (r : Runtime) :
    (r.updLine k f).lines = r.lines.set k (f r.lines[k]) := by
  simp [Runtime.updLine]

@[simp] theorem Runtime.updLine_directory (k : LineIx) (f : LineRecord → LineRecord) (r : Runtime) :
    (r.updLine k f).directory = r.directory := by
  simp [Runtime.updLine]

@[simp] theorem Runtime.updLine_suspect (k : LineIx) (f : LineRecord → LineRecord) (r : Runtime) :
    (r.updLine k f).suspect = r.suspect := by
  simp [Runtime.updLine]

@[simp] theorem Runtime.updLine_fetchList (k : LineIx) (f : LineRecord → LineRecord) (r : Runtime) :
    (r.updLine k f).fetchList = r.fetchList := by
  simp [Runtime.updLine]

@[simp] theorem Runtime.updLine_read (k : LineIx) (f : LineRecord → LineRecord) (r : Runtime) :
    (r.updLine k f).read = r.read := by
  simp [Runtime.updLine]

@[simp] theorem Runtime.updLine_mode (k : LineIx) (f : LineRecord → LineRecord) (r : Runtime) :
    (r.updLine k f).mode = r.mode := by
  simp [Runtime.updLine]

@[simp] theorem Runtime.updLine_settings (k : LineIx) (f : LineRecord → LineRecord) (r : Runtime) :
    (r.updLine k f).settings = r.settings := by
  simp [Runtime.updLine]

@[simp] theorem Runtime.setSuspect_units (i : ImageIx) (m : Option Half) (r : Runtime) :
    (r.setSuspect i m).units = r.units := by
  unfold Runtime.setSuspect; split <;> simp

@[simp] theorem Runtime.setSuspect_lines (i : ImageIx) (m : Option Half) (r : Runtime) :
    (r.setSuspect i m).lines = r.lines := by
  unfold Runtime.setSuspect; split <;> simp

@[simp] theorem Runtime.setSuspect_directory (i : ImageIx) (m : Option Half) (r : Runtime) :
    (r.setSuspect i m).directory = r.directory := by
  unfold Runtime.setSuspect; split <;> simp

@[simp] theorem Runtime.setSuspect_fetchList (i : ImageIx) (m : Option Half) (r : Runtime) :
    (r.setSuspect i m).fetchList = r.fetchList := by
  unfold Runtime.setSuspect; split <;> simp

@[simp] theorem Runtime.setSuspect_read (i : ImageIx) (m : Option Half) (r : Runtime) :
    (r.setSuspect i m).read = r.read := by
  unfold Runtime.setSuspect; split <;> simp

@[simp] theorem Runtime.setSuspect_mode (i : ImageIx) (m : Option Half) (r : Runtime) :
    (r.setSuspect i m).mode = r.mode := by
  unfold Runtime.setSuspect; split <;> simp

@[simp] theorem Runtime.setSuspect_settings (i : ImageIx) (m : Option Half) (r : Runtime) :
    (r.setSuspect i m).settings = r.settings := by
  unfold Runtime.setSuspect; split <;> simp

/-- A field that every item handed leaves alone is left alone by the hand-over of the feeds' changes. -/
theorem handFeeds_field {α : Type} (p : Runtime → α) (h : ∀ (i : Item) (r : Runtime), p (r.enqueue i) = p r)
    (old new : FeedControl) (r : Runtime) : p (r.handFeeds old new) = p r := by
  have fold : ∀ (l : List FeedIx) (r : Runtime),
      p (l.foldl (fun r f =>
        if feedStatus new.feed[f] = feedStatus old.feed[f] then r else r.enqueue (.feedStatus f)) r) = p r := by
    intro l
    induction l with
    | nil => intro r; rfl
    | cons f l ih =>
      intro r
      rw [List.foldl_cons, ih]
      split
      · rfl
      · exact h _ _
  unfold Runtime.handFeeds
  split
  · exact (h _ _).trans (fold _ r)
  · exact fold _ r

@[simp] theorem Runtime.handFeeds_units (old new : FeedControl) (r : Runtime) :
    (r.handFeeds old new).units = r.units := by
  exact handFeeds_field _ (fun _ _ => by simp) old new r

@[simp] theorem Runtime.handFeeds_lines (old new : FeedControl) (r : Runtime) :
    (r.handFeeds old new).lines = r.lines := by
  exact handFeeds_field _ (fun _ _ => by simp) old new r

@[simp] theorem Runtime.handFeeds_directory (old new : FeedControl) (r : Runtime) :
    (r.handFeeds old new).directory = r.directory := by
  exact handFeeds_field _ (fun _ _ => by simp) old new r

@[simp] theorem Runtime.handFeeds_suspect (old new : FeedControl) (r : Runtime) :
    (r.handFeeds old new).suspect = r.suspect := by
  exact handFeeds_field _ (fun _ _ => by simp) old new r

@[simp] theorem Runtime.handFeeds_fetchList (old new : FeedControl) (r : Runtime) :
    (r.handFeeds old new).fetchList = r.fetchList := by
  exact handFeeds_field _ (fun _ _ => by simp) old new r

@[simp] theorem Runtime.handFeeds_read (old new : FeedControl) (r : Runtime) :
    (r.handFeeds old new).read = r.read := by
  exact handFeeds_field _ (fun _ _ => by simp) old new r

@[simp] theorem Runtime.handFeeds_mode (old new : FeedControl) (r : Runtime) :
    (r.handFeeds old new).mode = r.mode := by
  exact handFeeds_field _ (fun _ _ => by simp) old new r

@[simp] theorem Runtime.handFeeds_settings (old new : FeedControl) (r : Runtime) :
    (r.handFeeds old new).settings = r.settings := by
  exact handFeeds_field _ (fun _ _ => by simp) old new r

@[simp] theorem Runtime.answer_units (u : UnitIx) (tag : Byte) (code : AnswerCode) (r : Runtime) :
    (r.answer u tag code).units = r.units.set u { r.units[u] with answerTag := tag, answerCode := code } := by
  simp [Runtime.answer]

@[simp] theorem Runtime.answer_lines (u : UnitIx) (tag : Byte) (code : AnswerCode) (r : Runtime) :
    (r.answer u tag code).lines = r.lines := by
  simp [Runtime.answer]

@[simp] theorem Runtime.answer_directory (u : UnitIx) (tag : Byte) (code : AnswerCode) (r : Runtime) :
    (r.answer u tag code).directory = r.directory := by
  simp [Runtime.answer]

@[simp] theorem Runtime.answer_suspect (u : UnitIx) (tag : Byte) (code : AnswerCode) (r : Runtime) :
    (r.answer u tag code).suspect = r.suspect := by
  simp [Runtime.answer]

@[simp] theorem Runtime.answer_fetchList (u : UnitIx) (tag : Byte) (code : AnswerCode) (r : Runtime) :
    (r.answer u tag code).fetchList = r.fetchList := by
  simp [Runtime.answer]

@[simp] theorem Runtime.answer_read (u : UnitIx) (tag : Byte) (code : AnswerCode) (r : Runtime) :
    (r.answer u tag code).read = r.read := by
  simp [Runtime.answer]

@[simp] theorem Runtime.answer_mode (u : UnitIx) (tag : Byte) (code : AnswerCode) (r : Runtime) :
    (r.answer u tag code).mode = r.mode := by
  simp [Runtime.answer]

@[simp] theorem Runtime.answer_settings (u : UnitIx) (tag : Byte) (code : AnswerCode) (r : Runtime) :
    (r.answer u tag code).settings = r.settings := by
  simp [Runtime.answer]

@[simp] theorem Runtime.closeInFlight_lines (u : UnitIx) (code : AnswerCode) (r : Runtime) :
    (r.closeInFlight u code).lines = r.lines := by
  unfold Runtime.closeInFlight; split <;> simp

@[simp] theorem Runtime.closeInFlight_directory (u : UnitIx) (code : AnswerCode) (r : Runtime) :
    (r.closeInFlight u code).directory = r.directory := by
  unfold Runtime.closeInFlight; split <;> simp

@[simp] theorem Runtime.closeInFlight_suspect (u : UnitIx) (code : AnswerCode) (r : Runtime) :
    (r.closeInFlight u code).suspect = r.suspect := by
  unfold Runtime.closeInFlight; split <;> simp

@[simp] theorem Runtime.closeInFlight_fetchList (u : UnitIx) (code : AnswerCode) (r : Runtime) :
    (r.closeInFlight u code).fetchList = r.fetchList := by
  unfold Runtime.closeInFlight; split <;> simp

@[simp] theorem Runtime.closeInFlight_read (u : UnitIx) (code : AnswerCode) (r : Runtime) :
    (r.closeInFlight u code).read = r.read := by
  unfold Runtime.closeInFlight; split <;> simp

@[simp] theorem Runtime.closeInFlight_mode (u : UnitIx) (code : AnswerCode) (r : Runtime) :
    (r.closeInFlight u code).mode = r.mode := by
  unfold Runtime.closeInFlight; split <;> simp

@[simp] theorem Runtime.closeInFlight_settings (u : UnitIx) (code : AnswerCode) (r : Runtime) :
    (r.closeInFlight u code).settings = r.settings := by
  unfold Runtime.closeInFlight; split <;> simp

end Machine

end Sys2Proof
end

