-- ==== Sys2Proof/Laws/Events.lean ====
section
/-! SUPPORT. When a command comes about and when it does not: line events, steps that a tick found due, and bursts that
complete (logs 2, 3, 6). -/

namespace Sys2Proof

namespace Machine

/-- A line event before the next tick has its effect where the line, time having passed, is in its condition; otherwise
nothing changes. -/
theorem lineEvent_eq (k : LineIx) (clk : Nat) (enabled : LineRecord → Bool) (effect : Runtime → Runtime) (s : State) :
    s.lineEvent k clk enabled effect =
      if s.clock.prescaler + clk < 4096 ∧ enabled ((s.rt.lines[k]).elapse clk) then
        { s.elapse clk with rt := effect (s.elapse clk).rt }
      else s := by
  unfold State.lineEvent State.atMoment
  by_cases h : s.clock.prescaler + clk < 4096
  · simp only [Config.clocksPerTick, h, if_true, State.elapse_rt, Fin.getElem_fin, Vector.getElem_map, true_and]
  · simp [Config.clocksPerTick, h]

/-- No time passing changes nothing. -/
@[simp] theorem LineRecord.elapse_zero (l : LineRecord) : l.elapse 0 = l := by
  cases l; simp [LineRecord.elapse]

@[simp] theorem State.elapse_zero (s : State) : s.elapse 0 = s := by
  have h : LineRecord.elapse 0 = id := funext LineRecord.elapse_zero
  simp [State.elapse, h]

/-- A step that is due is taken once; one that is not changes nothing. -/
theorem takeDue_eq (s : State) (d : Due) :
    s.takeDue d = if d ∈ s.due then State.dueEffect { s with due := s.due.erase d } d else s := rfl

/-- With nothing due there is nothing to take before a tick. -/
theorem flush_nil (s : State) (h : s.due = []) : s.flush = s := by simp [State.flush, h]

/-- A burst that completes for a live user frees the path and is acted on. -/
theorem completeBurst_live (data : List Byte) (act : ReadUser → Option (State → State)) (s : State) (b : ReadBurst)
    (go : State → State) (hr : s.rt.read = some b) (ha : act b.user = some go) (hl : b.live = true)
    (hd : data.length = b.length) : s.completeBurst data act = go s.endBurst := by
  simp [State.completeBurst, hr, ha, hl, hd]

/-- A step takes the front command with the queue's rest. -/
theorem step_cons (c : Instr) (rest : List Instr) (s : State) (h : s.pending = c :: rest) :
    step s = exec c { s with pending := rest } := by simp [step, h]

/-- On an empty queue the part idles. -/
theorem step_nil (s : State) (h : s.pending = []) : step s = .next s := by simp [step, h]

end Machine

end Sys2Proof
end

