-- ==== Sys2Proof/Laws/Lines.lean ====
section
/-! SUPPORT. What a line's operations do: the bits of a frame, what a cut leaves on the wire, what the receiver hears, and
the fields that the small changes of a line record leave alone. -/

namespace Sys2Proof

namespace Machine

/-! ### What the small changes of a line record leave alone -/

@[simp] theorem LineRecord.elapse_state (d : Nat) (l : LineRecord) : (l.elapse d).state = l.state := rfl

@[simp] theorem LineRecord.elapse_frame (d : Nat) (l : LineRecord) : (l.elapse d).frame = l.frame := rfl

@[simp] theorem LineRecord.elapse_txn (d : Nat) (l : LineRecord) : (l.elapse d).txn = l.txn := rfl

@[simp] theorem LineRecord.elapse_slot (d : Nat) (l : LineRecord) : (l.elapse d).slot = l.slot := rfl

@[simp] theorem LineRecord.elapse_waitList (d : Nat) (l : LineRecord) : (l.elapse d).waitList = l.waitList := rfl

@[simp] theorem LineRecord.elapse_latched (d : Nat) (l : LineRecord) : (l.elapse d).latched = l.latched := rfl

@[simp] theorem LineRecord.elapse_high (d : Nat) (l : LineRecord) : (l.elapse d).high = l.high := rfl

@[simp] theorem LineRecord.elapse_hunt (d : Nat) (l : LineRecord) : (l.elapse d).hunt = l.hunt := rfl

@[simp] theorem LineRecord.elapse_receiving (d : Nat) (l : LineRecord) : (l.elapse d).receiving = l.receiving := rfl

@[simp] theorem LineRecord.hear_state (xs : List SampleRun) (l : LineRecord) : (l.hear xs).state = l.state := rfl

@[simp] theorem LineRecord.hear_high (xs : List SampleRun) (l : LineRecord) :
    (l.hear xs).high = l.high.map (highAfter l.latched.divisor (sampleLevels xs)) := rfl

@[simp] theorem LineRecord.hear_txn (xs : List SampleRun) (l : LineRecord) : (l.hear xs).txn = l.txn := rfl

@[simp] theorem LineRecord.hear_waitList (xs : List SampleRun) (l : LineRecord) : (l.hear xs).waitList = l.waitList := rfl

@[simp] theorem LineRecord.listen_state (xs : List SampleRun) (l : LineRecord) : (l.listen xs).state = l.state := rfl

@[simp] theorem LineRecord.listen_high (xs : List SampleRun) (l : LineRecord) :
    (l.listen xs).high = (l.hear xs).high := rfl

@[simp] theorem LineRecord.huntAgain_state (b : Bool) (l : LineRecord) : (l.huntAgain b).state = l.state := rfl

@[simp] theorem LineRecord.huntAgain_high (b : Bool) (l : LineRecord) : (l.huntAgain b).high = l.high := rfl

@[simp] theorem LineRecord.hearBreak_state (l : LineRecord) : l.hearBreak.state = l.state := rfl

@[simp] theorem LineRecord.hearBreak_txn (l : LineRecord) : l.hearBreak.txn = l.txn := rfl

@[simp] theorem LineRecord.toFaulted_tail (l : LineRecord) : l.toFaulted.tail = l.cutTail := rfl

@[simp] theorem LineRecord.halt_tail (l : LineRecord) : l.halt.tail = l.cutTail := rfl

@[simp] theorem LineRecord.stopForGap_tail (l : LineRecord) : l.stopForGap.tail = l.cutTail := rfl

@[simp] theorem LineRecord.stopForHost_tail (l : LineRecord) : l.stopForHost.tail = l.cutTail := rfl

@[simp] theorem LineRecord.hearBreak_cutTail (l : LineRecord) : l.hearBreak.cutTail = l.cutTail := rfl

/-! ### What the receiver hears (R107, R111) -/

theorem highAfter_append (n : Nat) (xs ys : List Bool) (t : Nat) :
    highAfter n (xs ++ ys) t = highAfter n ys (highAfter n xs t) := List.foldl_append

/-- Samples heard in two parts. -/
theorem Hunt.hear_append (xs ys : List Bool) (h : Hunt) :
    h.hear (xs ++ ys) = (h.hear xs).bind (Hunt.hear ys) := by
  induction xs generalizing h with
  | nil => rfl
  | cons x xs ih => cases e : h.take x <;> simp [Hunt.hear, e, ih]

/-- Samples that are heard without a confirmation leave it to those after them. -/
theorem Hunt.confirms_append {xs : List Bool} {h g : Hunt} (e : h.hear xs = some g) (ys : List Bool) :
    h.confirms (xs ++ ys) = g.confirms ys := by
  induction xs generalizing h with
  | nil => cases e; rfl
  | cons x xs ih =>
    cases e' : h.take x with
    | none => simp [Hunt.hear, e'] at e
    | some h' =>
      simp only [Hunt.hear, e', Option.bind_some] at e
      simpa [Hunt.confirms, e'] using ih e

/-- The sample that confirms a start bit is low. -/
theorem Hunt.confirms_last {xs : List Bool} {h : Hunt} (e : h.confirms xs = true) : ∃ ys, xs = ys ++ [false] := by
  induction xs generalizing h with
  | nil => simp [Hunt.confirms] at e
  | cons x xs ih =>
    cases e' : h.take x with
    | none =>
      have hx : x = false := by
        cases h <;> cases x <;> simp [Hunt.take] at e' ⊢
        split at e' <;> simp at e'
      have : xs = [] := by simpa [Hunt.confirms, e'] using e
      exact ⟨[], by simp [hx, this]⟩
    | some h' =>
      obtain ⟨ys, rfl⟩ := ih (h := h') (by simpa [Hunt.confirms, e'] using e)
      exact ⟨x :: ys, rfl⟩

/-! ### Frames on the wire, and what a cut leaves (R103, R104, R110, R120, R122) -/

@[simp] theorem bitsUp_length (b : Byte) : (bitsUp b).length = 8 := by simp [bitsUp]

@[simp] theorem characterBits_length (b : Byte) : (characterBits b).length = 11 := by simp [characterBits]

@[simp] theorem frameCharacters_length (f : TxFrame) : (frameCharacters f).length = 7 + f.payload.length := by
  simp [frameCharacters, checkedFields, halfBytesHigh]; omega

/-- The bits of characters sent back to back, by the character and the bit in it. -/
theorem flatMap_characterBits_getD (cs : List Byte) (c : Byte) {i j : Nat} (h : cs[i]? = some c) (hj : j < 11) :
    (cs.flatMap characterBits).getD (11 * i + j) true = (characterBits c).getD j true := by
  induction cs generalizing i with
  | nil => simp at h
  | cons a cs ih =>
    cases i with
    | zero =>
      obtain rfl : a = c := by simpa using h
      simp only [List.flatMap_cons, List.getD_eq_getElem?_getD]
      rw [List.getElem?_append_left (by simp; omega)]; simp
    | succ i =>
      simp only [List.flatMap_cons, List.getD_eq_getElem?_getD]
      rw [List.getElem?_append_right (by simp; omega), characterBits_length]
      have := ih (i := i) (by simpa using h)
      simp only [List.getD_eq_getElem?_getD] at this
      rw [← this]; congr 2; omega

/-- A line that takes on what a cut left on the wire completes it. -/
theorem cutsTo_of_tail (l m : LineRecord) (ht : m.tail = l.cutTail)
    (hs : m.state = .idle ∨ m.state = .faulted ∨ m.state = .stopped) : l.CutsTo m := by
  have hd : ∀ d, (m.elapse d).driverEnabled = decide (0 < l.cutTail.left - d)
      ∧ (m.elapse d).txdHigh = Tail.levelHigh { l.cutTail with left := l.cutTail.left - d } := by
    intro d
    have e : (m.elapse d).state = m.state := rfl
    have e' : (m.elapse d).tail = { l.cutTail with left := l.cutTail.left - d } := by simp [LineRecord.elapse, ht]
    unfold LineRecord.driverEnabled LineRecord.txdHigh
    rw [e, e']
    rcases hs with h | h | h <;> simp [h, Tail.live]
  intro d
  rw [(hd d).1, (hd d).2]
  refine ⟨?_, ?_, ?_, ?_⟩
  · intro f h1 h2 h3
    have hl : l.cutTail = match (frameCharacters f)[l.phaseTimer / (176 * l.latched.divisor)]? with
        | some b => { levels := characterBits b, bit := 16 * l.latched.divisor
                      left := 176 * l.latched.divisor - l.phaseTimer % (176 * l.latched.divisor) }
        | none => Tail.over := by
      simp only [LineRecord.cutTail, h1, h2, h3]; rfl
    generalize hn : l.latched.divisor = n at *
    generalize hp : l.phaseTimer = p at *
    split
    · rename_i hlt
      have npos : 0 < n := by
        rcases Nat.eq_zero_or_pos n with rfl | h
        · simp at hlt
        · exact h
      have hi : p / (176 * n) < (frameCharacters f).length := by
        rw [frameCharacters_length]; exact (Nat.div_lt_iff_lt_mul (by omega)).2 hlt
      have hmod := Nat.mod_lt p (show 0 < 176 * n by omega)
      rw [List.getElem?_eq_getElem hi] at hl
      simp only [hl]
      refine ⟨by congr 1; simp; omega, ?_⟩
      by_cases hlive : p % (176 * n) + d < 176 * n
      · have hlive' : 0 < 176 * n - p % (176 * n) - d := by omega
        simp only [Tail.levelHigh, Tail.live, hlive', decide_true, if_true, characterBits_length, Bool.not_true, Bool.false_or]
        have e1 : 11 * (16 * n) - (176 * n - p % (176 * n) - d) = p % (176 * n) + d := by omega
        have ej : (p % (176 * n) + d) / (16 * n) < 11 := by
          apply (Nat.div_lt_iff_lt_mul (by omega)).2; omega
        rw [e1]
        have e2 : (l.elapse d).txdHigh = (frameBits f).getD ((p + d) / (16 * n)) true := by
          simp [LineRecord.txdHigh, LineRecord.elapse, h1, h2, h3, hn, hp, bitClocks]
        rw [e2]
        have e3 : (p + d) / (16 * n) = 11 * (p / (176 * n)) + (p % (176 * n) + d) / (16 * n) := by
          have := Nat.div_add_mod p (176 * n)
          have e4 : p + d = (p % (176 * n) + d) + (16 * n) * (11 * (p / (176 * n))) := by
            have : 16 * n * (11 * (p / (176 * n))) = 176 * n * (p / (176 * n)) := by
              rw [← Nat.mul_assoc]; congr 1; omega
            omega
          rw [e4, Nat.add_mul_div_left _ _ (by omega)]; omega
        rw [e3]
        exact (flatMap_characterBits_getD _ _ (List.getElem?_eq_getElem hi) ej).symm
      · have hdead : ¬ 0 < 176 * n - p % (176 * n) - d := by omega
        simp only [Tail.levelHigh, Tail.live, hdead, decide_false]; simp
    · rename_i hge
      rcases Nat.eq_zero_or_pos n with rfl | npos
      · simp only [hl]; split <;> simp [Tail.levelHigh, Tail.live, Tail.over]
      · have : (frameCharacters f)[p / (176 * n)]? = none := by
          apply List.getElem?_eq_none; rw [frameCharacters_length]
          exact (Nat.le_div_iff_mul_le (by omega)).2 (by omega)
        rw [this] at hl
        simp [hl, Tail.levelHigh, Tail.live, Tail.over]
  · intro h1 h2
    have hl : l.cutTail = { levels := [false], bit := twoCharClocks l.latched, left := twoCharClocks l.latched - l.phaseTimer } := by
      simp [LineRecord.cutTail, h1, h2]
    have h2' : twoCharClocks l.latched = 2 * (176 * l.latched.divisor) := rfl
    rw [hl, h2']
    generalize 2 * (176 * l.latched.divisor) = c
    by_cases h : l.phaseTimer + d < c
    · have e0 : 0 < c - l.phaseTimer - d := by omega
      have e1 : (1 * c - (c - l.phaseTimer - d)) / c = 0 := Nat.div_eq_of_lt (by omega)
      have e2 : (c - (c - l.phaseTimer - d)) / c = 0 := Nat.div_eq_of_lt (by omega)
      simp [Tail.levelHigh, Tail.live, e0, h, e2]
    · have e0 : ¬ 0 < c - l.phaseTimer - d := by omega
      simp [Tail.levelHigh, Tail.live, e0, h]
  · intro h
    have : l.cutTail = Tail.over := by
      rcases h with ⟨h, h'⟩ | ⟨h, h'⟩ | h | h <;> simp [LineRecord.cutTail, *]
    simp [this, Tail.levelHigh, Tail.live, Tail.over]
  · intro h
    have : l.cutTail = l.tail := by rcases h with h | h | h <;> simp [LineRecord.cutTail, h]
    have e : (l.elapse d).state = l.state := rfl
    have e' : (l.elapse d).tail = { l.tail with left := l.tail.left - d } := rfl
    unfold LineRecord.driverEnabled LineRecord.txdHigh
    rw [e, e', this]
    rcases h with h | h | h <;> simp [h, Tail.live]
end Machine

end Sys2Proof
end

