-- ==== Sys2Proof/Laws/Queue.lean ====
section
/-! SUPPORT. What every function of the runtime does to the write queue: it only adds items at the tail, each once, and
none while the controller is STOPPED; and it leaves the mode, the settings and the directory copy alone (R145, R189,
R190). -/

namespace Sys2Proof

namespace Machine

/-- `r` comes from `r0` by changes that hand items to the queue. -/
structure Runtime.Extends (r0 r : Runtime) : Prop where
  mode : r.mode = r0.mode
  settings : r.settings = r0.settings
  directory : r.directory = r0.directory
  once : r0.queue.Nodup → r.queue.Nodup
  tail : ∃ l, r.queue = r0.queue ++ l
  silent : r0.mode = .stopped → r.queue = r0.queue

theorem Runtime.Extends.refl (r : Runtime) : r.Extends r :=
  ⟨rfl, rfl, rfl, id, ⟨[], by simp⟩, fun _ => rfl⟩

theorem Runtime.Extends.trans {a b c : Runtime} (h : a.Extends b) (h' : b.Extends c) : a.Extends c := by
  obtain ⟨l, hl⟩ := h.tail
  obtain ⟨m, hm⟩ := h'.tail
  exact ⟨h'.mode.trans h.mode, h'.settings.trans h.settings, h'.directory.trans h.directory, fun n => h'.once (h.once n),
    ⟨l ++ m, by simp [hm, hl]⟩, fun n => (h'.silent (h.mode.trans n)).trans (h.silent n)⟩

/-- A change of nothing but the records, the lists of fetches and the read path. -/
theorem Runtime.Extends.same {r0 r r' : Runtime} (h : r0.Extends r) (hm : r'.mode = r.mode)
    (hs : r'.settings = r.settings) (hd : r'.directory = r.directory) (hq : r'.queue = r.queue) : r0.Extends r' :=
  ⟨hm.trans h.mode, hs.trans h.settings, hd.trans h.directory, fun n => hq ▸ h.once n,
    hq ▸ h.tail, fun n => hq.trans (h.silent n)⟩

/-! ### The primitive changes -/

@[simp] theorem ite_extends {r0 a b : Runtime} (c : Prop) [Decidable c] (ha : r0.Extends a) (hb : r0.Extends b) :
    r0.Extends (if c then a else b) := by
  split
  · exact ha
  · exact hb

@[simp] theorem enqueue_extends {r0 r : Runtime} (i : Item) (h : r0.Extends r) : r0.Extends (r.enqueue i) := by
  refine h.trans ⟨by simp, by simp, by simp, ?_, ?_, ?_⟩ <;> unfold Runtime.enqueue
  · intro n
    split
    · exact n
    · split
      · exact n
      · rename_i hi
        refine List.nodup_append.2 ⟨n, by simp, ?_⟩
        intro a ha b hb e
        exact hi (List.mem_singleton.1 hb ▸ e ▸ ha)
  · split
    · exact ⟨[], by simp⟩
    · split
      · exact ⟨[], by simp⟩
      · exact ⟨[i], rfl⟩
  · intro n
    simp [n]

@[simp] theorem setUnit_extends {r0 r : Runtime} (u : UnitIx) (x : UnitRecord) (h : r0.Extends r) :
    r0.Extends (r.setUnit u x) := by
  unfold Runtime.setUnit
  split
  · exact h.same rfl rfl rfl rfl
  · exact enqueue_extends _ (h.same rfl rfl rfl rfl)

@[simp] theorem updUnit_extends {r0 r : Runtime} (u : UnitIx) (f : UnitRecord → UnitRecord) (h : r0.Extends r) :
    r0.Extends (r.updUnit u f) := setUnit_extends _ _ h

@[simp] theorem setLine_extends {r0 r : Runtime} (k : LineIx) (l : LineRecord) (h : r0.Extends r) :
    r0.Extends (r.setLine k l) := by
  unfold Runtime.setLine
  split
  · exact h.same rfl rfl rfl rfl
  · exact enqueue_extends _ (h.same rfl rfl rfl rfl)

@[simp] theorem updLine_extends {r0 r : Runtime} (k : LineIx) (f : LineRecord → LineRecord) (h : r0.Extends r) :
    r0.Extends (r.updLine k f) := setLine_extends _ _ h

@[simp] theorem setSuspect_extends {r0 r : Runtime} (i : ImageIx) (m : Option Half) (h : r0.Extends r) :
    r0.Extends (r.setSuspect i m) := by
  unfold Runtime.setSuspect
  split
  · exact h
  · exact enqueue_extends _ (h.same rfl rfl rfl rfl)

/-- A fold of changes is a change. -/
theorem foldl_extends {α : Type} {r0 : Runtime} (f : Runtime → α → Runtime)
    (hf : ∀ r a, r0.Extends r → r0.Extends (f r a)) (l : List α) :
    ∀ {r : Runtime}, r0.Extends r → r0.Extends (l.foldl f r) := by
  induction l with
  | nil => exact fun h => h
  | cons a l ih => exact fun h => ih (hf _ _ h)

theorem eachUnit_extends {r0 r : Runtime} {f : UnitIx → Runtime → Runtime}
    (hf : ∀ u r, r0.Extends r → r0.Extends (f u r)) (h : r0.Extends r) : r0.Extends (r.eachUnit f) :=
  foldl_extends _ (fun r u => hf u r) _ h

theorem eachLine_extends {r0 r : Runtime} {f : LineIx → Runtime → Runtime}
    (hf : ∀ k r, r0.Extends r → r0.Extends (f k r)) (h : r0.Extends r) : r0.Extends (r.eachLine f) :=
  foldl_extends _ (fun r k => hf k r) _ h

@[simp] theorem handFeeds_extends {r0 r : Runtime} (old new : FeedControl) (h : r0.Extends r) :
    r0.Extends (r.handFeeds old new) := by
  have fold := foldl_extends (r0 := r0)
    (fun r f => if feedStatus new.feed[f] = feedStatus old.feed[f] then r else r.enqueue (.feedStatus f))
    (fun r f h => by split <;> simp [h]) (List.finRange Config.feeds) h
  unfold Runtime.handFeeds
  split
  · exact enqueue_extends _ fold
  · exact fold

/-- Out of STOPPED an item handed stands in the queue (R189). -/
theorem mem_enqueue (i : Item) (r : Runtime) (h : r.mode ≠ .stopped) : i ∈ (r.enqueue i).queue := by
  unfold Runtime.enqueue
  split
  · contradiction
  · split
    · assumption
    · simp

/-- A budget that takes force hands the header status (R190). -/
theorem handFeeds_headerStatus (old new : FeedControl) (r : Runtime) (h : old.budgetTakesForce new = true)
    (hm : r.mode ≠ .stopped) : Item.headerStatus ∈ (r.handFeeds old new).queue := by
  have fold : ∀ (l : List FeedIx) (r : Runtime), (l.foldl (fun r f =>
      if feedStatus new.feed[f] = feedStatus old.feed[f] then r else r.enqueue (.feedStatus f)) r).mode = r.mode := by
    intro l
    induction l with
    | nil => intro r; rfl
    | cons f l ih => intro r; rw [List.foldl_cons, ih]; split <;> simp
  unfold Runtime.handFeeds
  rw [if_pos h]
  exact mem_enqueue _ _ (by rw [fold]; exact hm)

/-- A pending budget takes force with the last soft start over, be it equal to the one in force (R84). -/
theorem settleBudget_takesForce (fc : FeedControl) (b : Nat) (hb : fc.pendingBudget = some b) (hs : fc.starting = false) :
    fc.budgetTakesForce fc.settleBudget = true := by
  simp [FeedControl.settleBudget, FeedControl.budgetTakesForce, hb, hs]

@[simp] theorem answer_extends {r0 r : Runtime} (u : UnitIx) (tag : Byte) (code : AnswerCode) (h : r0.Extends r) :
    r0.Extends (r.answer u tag code) := enqueue_extends _ (updUnit_extends _ _ h)

@[simp] theorem closeInFlight_extends {r0 r : Runtime} (u : UnitIx) (code : AnswerCode) (h : r0.Extends r) :
    r0.Extends (r.closeInFlight u code) := by
  unfold Runtime.closeInFlight
  split
  · exact h
  · exact answer_extends _ _ _ (updUnit_extends _ _ h)

/-! ### What the runs do -/

@[simp] theorem post_extends {r0 r : Runtime} (u : UnitIx) (w : Work) (h : r0.Extends r) :
    r0.Extends (r.post u w) := by
  unfold Runtime.post
  (repeat' split) <;> simp (maxDischargeDepth := 30) [h]

@[simp] theorem askBlock_extends {r0 r : Runtime} (k : LineIx) (b : Nat) (fp : Bool) (h : r0.Extends r) :
    r0.Extends (r.askBlock k b fp) := by
  unfold Runtime.askBlock
  split
  · exact h
  · exact h.same rfl rfl rfl rfl

@[simp] theorem freeSlot_extends {r0 r : Runtime} (k : LineIx) (h : r0.Extends r) :
    r0.Extends (r.freeSlot k) := by
  refine eachUnit_extends (fun u r h => ?_) ?_
  · split
    · exact post_extends _ _ (updUnit_extends _ _ h)
    · exact h
  · exact (updLine_extends k LineRecord.clearSlot h).same rfl rfl rfl rfl

@[simp] theorem dissolve_extends {r0 r : Runtime} (k : LineIx) (h : r0.Extends r) :
    r0.Extends (r.dissolve k) := by
  unfold Runtime.dissolve
  split
  · exact h
  · exact freeSlot_extends _ (updLine_extends _ _
      (foldl_extends _ (fun r m h => updUnit_extends _ _ h) _ h))

@[simp] theorem takeOffGroup_extends {r0 r : Runtime} (k : LineIx) (u : UnitIx) (g : Group) (h : r0.Extends r) :
    r0.Extends (r.takeOffGroup k u g) := updLine_extends _ _ (updUnit_extends _ _ h)

@[simp] theorem dissolveEmpty_extends {r0 r : Runtime} (k : LineIx) (h : r0.Extends r) :
    r0.Extends (r.dissolveEmpty k) := by
  unfold Runtime.dissolveEmpty
  (repeat' split) <;> simp [h]

theorem leaveGroup_extends {r0 r : Runtime} (k : LineIx) (u : UnitIx) {act : Runtime → Runtime}
    (ha : ∀ r, r0.Extends r → r0.Extends (act r)) (h : r0.Extends r) : r0.Extends (r.leaveGroup k u act) := by
  unfold Runtime.leaveGroup
  split
  · exact ha _ h
  · split
    · exact dissolveEmpty_extends _ (ha _ (takeOffGroup_extends _ _ _ h))
    · exact ha _ h

@[simp] theorem leaveGroup_id_extends {r0 r : Runtime} (k : LineIx) (u : UnitIx) (h : r0.Extends r) :
    r0.Extends (r.leaveGroup k u id) := leaveGroup_extends k u (fun _ h => h) h

@[simp] theorem withdraw_extends {r0 r : Runtime} (u : UnitIx) (h : r0.Extends r) :
    r0.Extends (r.withdraw u) := by
  unfold Runtime.withdraw
  simp (maxDischargeDepth := 30) [h]

@[simp] theorem failRun_extends {r0 r : Runtime} (u : UnitIx) (c : FailureCause) (h : r0.Extends r) :
    r0.Extends (r.failRun u c) := by
  unfold Runtime.failRun
  simp (maxDischargeDepth := 30) [h]

@[simp] theorem refreshSuspect_extends {r0 r : Runtime} (i : ImageIx) (h : r0.Extends r) :
    r0.Extends (r.refreshSuspect i) := by
  unfold Runtime.refreshSuspect
  (repeat' split) <;> simp (maxDischargeDepth := 30) [h]

@[simp] theorem latch_extends {r0 r : Runtime} (u : UnitIx) (h : r0.Extends r) : r0.Extends (r.latch u).1 := by
  unfold Runtime.latch
  dsimp only
  split <;> simp (maxDischargeDepth := 30) [h]

theorem runStart_extends {r0 r : Runtime} (u : UnitIx) {go : Runtime → Runtime}
    (hg : ∀ r, r0.Extends r → r0.Extends (go r)) (h : r0.Extends r) : r0.Extends (r.runStart u go) := by
  unfold Runtime.runStart
  dsimp only
  split
  · exact hg _ (updUnit_extends _ _ (latch_extends _ (updUnit_extends _ _ h)))
  · exact failRun_extends _ _ (latch_extends _ (updUnit_extends _ _ h))

@[simp] theorem contact_extends {r0 r : Runtime} (u : UnitIx) (st : RunState) (h : r0.Extends r) :
    r0.Extends (r.contact u st) := by
  unfold Runtime.contact
  simp (maxDischargeDepth := 30) [h]

@[simp] theorem runStart_contact_extends {r0 r : Runtime} (u : UnitIx) (st : RunState) (h : r0.Extends r) :
    r0.Extends (r.runStart u fun r => r.contact u st) := runStart_extends u (fun _ h => contact_extends u st h) h

@[simp] theorem check_extends {r0 r : Runtime} (u : UnitIx) (h : r0.Extends r) :
    r0.Extends (r.check u) := by
  unfold Runtime.check
  simp (maxDischargeDepth := 30) [h]

@[simp] theorem proceed_extends {r0 r : Runtime} (u : UnitIx) (h : r0.Extends r) :
    r0.Extends (r.proceed u) := by
  refine runStart_extends u (fun r h => ?_) h
  (repeat' split) <;> simp [h]

@[simp] theorem lose_extends {r0 r : Runtime} (u : UnitIx) (h : r0.Extends r) :
    r0.Extends (r.lose u) := by
  unfold Runtime.lose
  refine runStart_extends u (fun r h => contact_extends _ _ h) ?_
  split <;> simp (maxDischargeDepth := 30) [h]

@[simp] theorem takeLoadStep_extends {r0 r : Runtime} (u : UnitIx) (h : r0.Extends r) :
    r0.Extends (r.takeLoadStep u) := by
  unfold Runtime.takeLoadStep
  (repeat' split) <;> simp (maxDischargeDepth := 30) [h]

@[simp] theorem enterLoading_extends {r0 r : Runtime} (u : UnitIx) (h : r0.Extends r) :
    r0.Extends (r.enterLoading u) := by
  unfold Runtime.enterLoading
  simp (maxDischargeDepth := 30) [h]

@[simp] theorem leaveToLoadAlone_extends {r0 r : Runtime} (k : LineIx) (u : UnitIx) (h : r0.Extends r) :
    r0.Extends (r.leaveToLoadAlone k u) :=
  leaveGroup_extends k u (fun _ h => takeLoadStep_extends u h) (updUnit_extends _ _ h)

@[simp] theorem enterRestoring_extends {r0 r : Runtime} (u : UnitIx) (ask : Bool) (h : r0.Extends r) :
    r0.Extends (r.enterRestoring u ask) := by
  unfold Runtime.enterRestoring
  (repeat' split) <;> simp (maxDischargeDepth := 30) [h]

@[simp] theorem postPendingEdit_extends {r0 r : Runtime} (u : UnitIx) (h : r0.Extends r) :
    r0.Extends (r.postPendingEdit u) := by
  unfold Runtime.postPendingEdit
  (repeat' split) <;> simp (maxDischargeDepth := 30) [h]

@[simp] theorem probeHello_extends {r0 r : Runtime} (u : UnitIx) (x : Hello) (h : r0.Extends r) :
    r0.Extends (r.probeHello u x) := by
  unfold Runtime.probeHello
  (repeat' split) <;> simp (maxDischargeDepth := 30) [h]

@[simp] theorem attendHello_extends {r0 r : Runtime} (u : UnitIx) (x : Hello) (h : r0.Extends r) :
    r0.Extends (r.attendHello u x) := by
  unfold Runtime.attendHello
  (repeat' split) <;> simp (maxDischargeDepth := 30) [h]

@[simp] theorem takeHello_extends {r0 r : Runtime} (u : UnitIx) (x : Hello) (h : r0.Extends r) :
    r0.Extends (r.takeHello u x) := by
  unfold Runtime.takeHello
  (repeat' split) <;> simp (maxDischargeDepth := 30) [h]

/-! ### Transactions -/

@[simp] theorem askNext_extends {r0 r : Runtime} (k : LineIx) (t : Transaction) (h : r0.Extends r) :
    r0.Extends (r.askNext k t) := by
  unfold Runtime.askNext
  (repeat' split) <;> simp (maxDischargeDepth := 30) [h]

@[simp] theorem beginFrame_extends {r0 r : Runtime} (k : LineIx) (h : r0.Extends r) :
    r0.Extends (r.beginFrame k) := by
  unfold Runtime.beginFrame
  (repeat' split) <;> simp (maxDischargeDepth := 30) [h]

@[simp] theorem handAttempt_extends {r0 r : Runtime} (k : LineIx) (h : r0.Extends r) :
    r0.Extends (r.handAttempt k) := by
  unfold Runtime.handAttempt
  simp (maxDischargeDepth := 30) [h]

@[simp] theorem openTxn_extends {r0 r : Runtime} (k : LineIx) (t : Transaction) (h : r0.Extends r) :
    r0.Extends (r.openTxn k t) := by
  unfold Runtime.openTxn
  (repeat' split) <;> simp (maxDischargeDepth := 30) [h]

@[simp] theorem helloEnd_extends {r0 r : Runtime} (u : UnitIx)(e : TxnEnd) (h : r0.Extends r) :
    r0.Extends (r.helloEnd u e) := by
  unfold Runtime.helloEnd
  (repeat' split) <;> simp (maxDischargeDepth := 30) [h]

@[simp] theorem pollMiss_extends {r0 r : Runtime} (u : UnitIx) (h : r0.Extends r) :
    r0.Extends (r.pollMiss u) := by
  unfold Runtime.pollMiss
  simp (maxDischargeDepth := 30) [h]

@[simp] theorem pollEnd_extends {r0 r : Runtime} (u : UnitIx) (att : Option Attempt) (e : TxnEnd) (h : r0.Extends r) :
    r0.Extends (r.pollEnd u att e) := by
  unfold Runtime.pollEnd
  (repeat' split) <;> simp (maxDischargeDepth := 30) [h]

@[simp] theorem checkMiss_extends {r0 r : Runtime} (u : UnitIx) (h : r0.Extends r) :
    r0.Extends (r.checkMiss u) := by
  unfold Runtime.checkMiss
  simp (maxDischargeDepth := 30) [h]

@[simp] theorem checkEnd_extends {r0 r : Runtime} (u : UnitIx)(e : TxnEnd) (h : r0.Extends r) :
    r0.Extends (r.checkEnd u e) := by
  unfold Runtime.checkEnd
  (repeat' split) <;> simp (maxDischargeDepth := 30) [h]

@[simp] theorem askEnd_extends {r0 r : Runtime} (u : UnitIx)(e : TxnEnd) (h : r0.Extends r) :
    r0.Extends (r.askEnd u e) := by
  unfold Runtime.askEnd
  (repeat' split) <;> simp (maxDischargeDepth := 30) [h]

@[simp] theorem statusEnd_extends {r0 r : Runtime} (u : UnitIx)(e : TxnEnd) (h : r0.Extends r) :
    r0.Extends (r.statusEnd u e) := by
  unfold Runtime.statusEnd
  (repeat' split) <;> simp (maxDischargeDepth := 30) [h]

@[simp] theorem restored_extends {r0 r : Runtime} (u : UnitIx) (att : Option Attempt) (h : r0.Extends r) :
    r0.Extends (r.restored u att) := by
  unfold Runtime.restored
  simp (maxDischargeDepth := 30) [h]

@[simp] theorem putAcked_extends {r0 r : Runtime} (u : UnitIx) (p : PutPurpose) (att : Option Attempt) (h : r0.Extends r) :
    r0.Extends (r.putAcked u p att) := by
  unfold Runtime.putAcked
  (repeat' split) <;> simp (maxDischargeDepth := 30) [h]

@[simp] theorem putEnd_extends {r0 r : Runtime} (u : UnitIx) (p : PutPurpose) (att : Option Attempt) (e : TxnEnd) (h : r0.Extends r) :
    r0.Extends (r.putEnd u p att e) := by
  unfold Runtime.putEnd
  (repeat' split) <;> simp (maxDischargeDepth := 30) [h]

@[simp] theorem nextBlock_extends {r0 r : Runtime} (k : LineIx) (u : UnitIx) (h : r0.Extends r) :
    r0.Extends (r.nextBlock k u) := by
  unfold Runtime.nextBlock
  (repeat' split) <;> simp (maxDischargeDepth := 30) [h]

@[simp] theorem beginAcked_extends {r0 r : Runtime} (u : UnitIx) (h : r0.Extends r) : r0.Extends (r.beginAcked u) := by
  unfold Runtime.beginAcked
  simp (maxDischargeDepth := 30) [h]

@[simp] theorem beginEnd_extends {r0 r : Runtime} (k : LineIx) (u : UnitIx)(e : TxnEnd) (h : r0.Extends r) :
    r0.Extends (r.beginEnd k u e) := by
  unfold Runtime.beginEnd
  (repeat' split) <;> simp (maxDischargeDepth := 30) [h]

@[simp] theorem blockEnd_extends {r0 r : Runtime} (k : LineIx) (u : UnitIx)(e : TxnEnd) (h : r0.Extends r) :
    r0.Extends (r.blockEnd k u e) := by
  unfold Runtime.blockEnd
  (repeat' split) <;> simp (maxDischargeDepth := 30) [h]

@[simp] theorem verdictEnd_extends {r0 r : Runtime} (u : UnitIx)(e : TxnEnd) (h : r0.Extends r) :
    r0.Extends (r.verdictEnd u e) := by
  unfold Runtime.verdictEnd
  (repeat' split) <;> simp (maxDischargeDepth := 30) [h]

@[simp] theorem runEnd_extends {r0 r : Runtime} (k : LineIx) (u : UnitIx) (w : Work) (att : Option Attempt) (e : TxnEnd) (h : r0.Extends r) :
    r0.Extends (r.runEnd k u w att e) := by
  unfold Runtime.runEnd
  (repeat' split) <;> simp (maxDischargeDepth := 30) [h]

@[simp] theorem postHeld_extends {r0 r : Runtime} (u : UnitIx) (w : Option Work) (h : r0.Extends r) :
    r0.Extends (r.postHeld u w) := by
  unfold Runtime.postHeld
  (repeat' split) <;> simp (maxDischargeDepth := 30) [h]

@[simp] theorem unitEnd_extends {r0 r : Runtime} (k : LineIx) (u : UnitIx) (w : Work) (att : Option Attempt) (e : TxnEnd) (h : r0.Extends r) :
    r0.Extends (r.unitEnd k u w att e) := by
  unfold Runtime.unitEnd
  simp (maxDischargeDepth := 30) [h]

/-! ### Groups -/

@[simp] theorem setGroup_extends {r0 r : Runtime} (k : LineIx) (g : Group) (h : r0.Extends r) :
    r0.Extends (r.setGroup k g) := by
  unfold Runtime.setGroup
  simp (maxDischargeDepth := 30) [h]

@[simp] theorem updMember_extends {r0 r : Runtime} (k : LineIx) (u : UnitIx) (f : Member → Member) (h : r0.Extends r) :
    r0.Extends (r.updMember k u f) := by
  unfold Runtime.updMember
  (repeat' split) <;> simp (maxDischargeDepth := 30) [h]

@[simp] theorem missBlock_extends {r0 r : Runtime} (k : LineIx) (u : UnitIx) (g : Group) (n : Nat) (h : r0.Extends r) :
    r0.Extends (r.missBlock k u g n) := by
  unfold Runtime.missBlock
  (repeat' split) <;> simp (maxDischargeDepth := 30) [h]

@[simp] theorem tally_extends {r0 r : Runtime} (k : LineIx) (u : UnitIx) (g : Group) (e : TxnEnd) (h : r0.Extends r) :
    r0.Extends (r.tally k u g e) := by
  unfold Runtime.tally
  (repeat' split) <;> simp (maxDischargeDepth := 30) [h]

@[simp] theorem leaveGroup_verdictEnd_extends {r0 r : Runtime} (k : LineIx) (u : UnitIx) (e : TxnEnd) (h : r0.Extends r) :
    r0.Extends (r.leaveGroup k u (Runtime.verdictEnd u e)) := leaveGroup_extends k u (fun _ h => verdictEnd_extends u e h) h

@[simp] theorem memberEnd_extends {r0 r : Runtime} (k : LineIx) (u : UnitIx) (g : Group) (e : TxnEnd) (h : r0.Extends r) :
    r0.Extends (r.memberEnd k u g e) := by
  unfold Runtime.memberEnd
  (repeat' split) <;> simp (maxDischargeDepth := 30) [h]

@[simp] theorem groupEnd_extends {r0 r : Runtime} (k : LineIx) (t : Transaction) (e : TxnEnd) (h : r0.Extends r) :
    r0.Extends (r.groupEnd k t e) := by
  unfold Runtime.groupEnd
  (repeat' split) <;> simp (maxDischargeDepth := 30) [h]

@[simp] theorem awaitBlock_extends {r0 r : Runtime} (k : LineIx) (b : Nat) (h : r0.Extends r) :
    r0.Extends (r.awaitBlock k b) := by
  unfold Runtime.awaitBlock
  (repeat' split) <;> simp (maxDischargeDepth := 30) [h]

@[simp] theorem repairOrEnd_extends {r0 r : Runtime} (k : LineIx) (g : Group) (h : r0.Extends r) :
    r0.Extends (r.repairOrEnd k g) := by
  unfold Runtime.repairOrEnd
  (repeat' split) <;> simp (maxDischargeDepth := 30) [h]

@[simp] theorem endRound_extends {r0 r : Runtime} (k : LineIx) (h : r0.Extends r) :
    r0.Extends (r.endRound k) := by
  unfold Runtime.endRound
  (repeat' (first | split | dsimp only)) <;> simp (maxDischargeDepth := 30) [h]

@[simp] theorem runRound_extends {r0 : Runtime} (k : LineIx) (l : List (Option UnitIx)) :
    ∀ {r : Runtime}, r0.Extends r → r0.Extends (r.runRound k l) := by
  induction l with
  | nil => exact fun h => endRound_extends k h
  | cons a l ih =>
    intro r h
    unfold Runtime.runRound
    split
    · exact h
    · dsimp only
      split
      · exact ih (groupEnd_extends _ _ _ (updLine_extends _ _ (openTxn_extends _ _ (setGroup_extends _ _ h))))
      · exact handAttempt_extends _ (openTxn_extends _ _ (setGroup_extends _ _ h))

@[simp] theorem resumeRound_extends {r0 r : Runtime} (k : LineIx) (h : r0.Extends r) :
    r0.Extends (r.resumeRound k) := by
  unfold Runtime.resumeRound
  (repeat' split) <;> simp (maxDischargeDepth := 30) [h]

@[simp] theorem resumeRounds_extends {r0 r : Runtime}  (h : r0.Extends r) :
    r0.Extends (r.resumeRounds) := by
  exact eachLine_extends (fun k r h => resumeRound_extends k h) h

@[simp] theorem endTxn_extends {r0 r : Runtime} (k : LineIx)(e : TxnEnd) (h : r0.Extends r) :
    r0.Extends (r.endTxn k e) := by
  unfold Runtime.endTxn
  (repeat' (first | split | dsimp only)) <;> simp (maxDischargeDepth := 30) [h]

@[simp] theorem failAttempt_extends {r0 r : Runtime} (k : LineIx) (f : Failure) (h : r0.Extends r) :
    r0.Extends (r.failAttempt k f) := by
  unfold Runtime.failAttempt
  (repeat' split) <;> simp (maxDischargeDepth := 30) [h]

@[simp] theorem startSingle_extends {r0 r : Runtime} (k : LineIx) (u : UnitIx) (w : Work) (h : r0.Extends r) :
    r0.Extends (r.startSingle k u w) := by
  unfold Runtime.startSingle
  (repeat' split) <;> simp (maxDischargeDepth := 30) [h]

/-! ### The arbiter -/

@[simp] theorem latchAll_extends {r0 : Runtime} (l : List UnitIx) :
    ∀ {r : Runtime}, r0.Extends r → r0.Extends (r.latchAll l).1 := by
  induction l with
  | nil => exact fun h => h
  | cons v l ih =>
    intro r h
    unfold Runtime.latchAll
    dsimp only
    split
    · exact ih (latch_extends _ h)
    · exact ih (failRun_extends _ _ (latch_extends _ h))

@[simp] theorem clearBegins_extends {r0 r : Runtime} (k : LineIx) (h : r0.Extends r) :
    r0.Extends (r.clearBegins k) := by
  refine foldl_extends _ (fun r e h => ?_) _ h
  split
  · exact updUnit_extends _ _ (updLine_extends _ _ h)
  · exact h

@[simp] theorem takeSlot_extends {r0 r : Runtime} (k : LineIx) (slot : Slot) (h : r0.Extends r) :
    r0.Extends (r.takeSlot k slot) := by
  unfold Runtime.takeSlot
  simp (maxDischargeDepth := 30) [h]

@[simp] theorem takeUnit_extends {r0 r : Runtime} (k : LineIx) (step : LoadStep) (u : UnitIx) (h : r0.Extends r) :
    r0.Extends (r.takeUnit k step u) := by
  unfold Runtime.takeUnit
  simp (maxDischargeDepth := 30) [h]

@[simp] theorem takeUnits_extends {r0 : Runtime} (k : LineIx) (step : LoadStep) (l : List UnitIx) :
    ∀ {r : Runtime}, r0.Extends r → r0.Extends (l.foldl (fun r v => r.takeUnit k step v) r) := by
  induction l with
  | nil => exact fun h => h
  | cons v l ih =>
    intro r h
    exact ih (takeUnit_extends k step v h)

@[simp] theorem chooseBegin_extends {r0 r : Runtime} (k : LineIx) (u : UnitIx) (h : r0.Extends r) :
    r0.Extends (r.chooseBegin k u) := by
  unfold Runtime.chooseBegin
  (repeat' (first | split | dsimp only)) <;> simp (maxDischargeDepth := 30) [h, -List.foldl_cons]

@[simp] theorem chooseGroup_extends {r0 r : Runtime} (k : LineIx) (h : r0.Extends r) :
    r0.Extends (r.chooseGroup k) := by
  unfold Runtime.chooseGroup
  (repeat' split) <;> simp (maxDischargeDepth := 30) [h]

@[simp] theorem startEntry_extends {r0 r : Runtime} (k : LineIx) (e : Entry) (h : r0.Extends r) :
    r0.Extends (r.startEntry k e) := by
  cases e with
  | single u w =>
    unfold Runtime.startEntry
    dsimp only
    split
    · exact chooseBegin_extends _ _ (updLine_extends _ _ h)
    · exact startSingle_extends _ _ _ (updLine_extends _ _ h)
  | group => exact chooseGroup_extends _ (updLine_extends _ _ h)

@[simp] theorem arbitrate_extends {r0 r : Runtime} (k : LineIx) (h : r0.Extends r) :
    r0.Extends (r.arbitrate k) := by
  unfold Runtime.arbitrate
  (repeat' split) <;> simp (maxDischargeDepth := 30) [h]

/-! ### Line events -/

@[simp] theorem finishAbandoned_extends {r0 r : Runtime} (k : LineIx) (h : r0.Extends r) :
    r0.Extends (r.finishAbandoned k) := by
  unfold Runtime.finishAbandoned
  simp (maxDischargeDepth := 30) [h]

@[simp] theorem sentEnd_extends {r0 r : Runtime} (k : LineIx) (h : r0.Extends r) :
    r0.Extends (r.sentEnd k) := by
  unfold Runtime.sentEnd
  (repeat' split) <;> simp (maxDischargeDepth := 30) [h]

@[simp] theorem frameSent_extends {r0 r : Runtime} (k : LineIx) (h : r0.Extends r) :
    r0.Extends (r.frameSent k) := by
  unfold Runtime.frameSent
  (repeat' split) <;> simp (maxDischargeDepth := 30) [h]

@[simp] theorem quietEnds_extends {r0 r : Runtime} (k : LineIx) (h : r0.Extends r) :
    r0.Extends (r.quietEnds k) := by
  unfold Runtime.quietEnds
  simp (maxDischargeDepth := 30) [h]

@[simp] theorem charReceived_extends {r0 r : Runtime} (k : LineIx) (xs : List SampleRun) (h : r0.Extends r) :
    r0.Extends (r.charReceived k xs) := by
  unfold Runtime.charReceived
  (repeat' split) <;> simp (maxDischargeDepth := 30) [h]

@[simp] theorem breakReceived_extends {r0 r : Runtime} (k : LineIx) (h : r0.Extends r) :
    r0.Extends (r.breakReceived k) := by
  unfold Runtime.breakReceived
  (repeat' split) <;> simp (maxDischargeDepth := 30) [h]

@[simp] theorem replyTaken_extends {r0 r : Runtime} (k : LineIx) (bytes : List Byte) (h : r0.Extends r) :
    r0.Extends (r.replyTaken k bytes) := by
  unfold Runtime.replyTaken
  (repeat' split) <;> simp (maxDischargeDepth := 30) [h]

@[simp] theorem frameReceived_extends {r0 r : Runtime} (k : LineIx) (h : r0.Extends r) :
    r0.Extends (r.frameReceived k) := by
  unfold Runtime.frameReceived
  (repeat' split) <;> simp (maxDischargeDepth := 30) [h]

@[simp] theorem noReply_extends {r0 r : Runtime} (k : LineIx) (h : r0.Extends r) :
    r0.Extends (r.noReply k) := by
  unfold Runtime.noReply
  simp (maxDischargeDepth := 30) [h]

@[simp] theorem discardEnds_extends {r0 r : Runtime} (k : LineIx) (h : r0.Extends r) :
    r0.Extends (r.discardEnds k) := by
  unfold Runtime.discardEnds
  (repeat' split) <;> simp (maxDischargeDepth := 30) [h]

@[simp] theorem faultEnds_extends {r0 r : Runtime} (k : LineIx) (xs : List SampleRun) (h : r0.Extends r) :
    r0.Extends (r.faultEnds k xs) := by
  unfold Runtime.faultEnds
  simp (maxDischargeDepth := 30) [h]

/-! ### Gaps, feeds and faults -/

@[simp] theorem dropFetches_extends {r0 r : Runtime}  (h : r0.Extends r) :
    r0.Extends (r.dropFetches) := by
  exact h.same rfl rfl rfl rfl

@[simp] theorem stopLines_extends {r0 r : Runtime}  (h : r0.Extends r) :
    r0.Extends (r.stopLines) := by
  exact dropFetches_extends (eachLine_extends (fun k r h => updLine_extends _ _ h) h)

@[simp] theorem ride_extends {r0 r : Runtime} (u : UnitIx) (h : r0.Extends r) :
    r0.Extends (r.ride u) := by
  unfold Runtime.ride
  (repeat' split) <;> simp (maxDischargeDepth := 30) [h]

@[simp] theorem supplyUp_extends {r0 r : Runtime} (on : FeedIx → Bool) (cls : Option GapClass) (u : UnitIx) (h : r0.Extends r) :
    r0.Extends (r.supplyUp on cls u) := by
  unfold Runtime.supplyUp
  (repeat' split) <;> simp (maxDischargeDepth := 30) [h]

@[simp] theorem loseFeed_extends {r0 r : Runtime} (u : UnitIx) (h : r0.Extends r) :
    r0.Extends (r.loseFeed u) := by
  unfold Runtime.loseFeed
  (repeat' split) <;> simp (maxDischargeDepth := 30) [h]

@[simp] theorem leftOn_extends {r0 r : Runtime} (f : FeedIx) (h : r0.Extends r) :
    r0.Extends (r.leftOn f) := by
  refine resumeRounds_extends (eachUnit_extends (fun u r h => ?_) h)
  split
  · exact loseFeed_extends _ h
  · exact h

@[simp] theorem reachedOn_extends {r0 r : Runtime} (f : FeedIx) (h : r0.Extends r) :
    r0.Extends (r.reachedOn f) := by
  refine eachUnit_extends (fun u r h => ?_) h
  split
  · exact proceed_extends _ h
  · exact h

@[simp] theorem orphanRead_extends {r0 r : Runtime}  (h : r0.Extends r) :
    r0.Extends (r.orphanRead) := by
  exact h.same rfl rfl rfl rfl

@[simp] theorem keepVerdict_extends {r0 r : Runtime} (k : LineIx) (h : r0.Extends r) :
    r0.Extends (r.keepVerdict k) := by
  unfold Runtime.keepVerdict
  (repeat' split) <;> simp (maxDischargeDepth := 30) [h]

theorem clearFetches_extends {r0 r : Runtime} (h : r0.Extends r) : r0.Extends { r with fetchList := [] } :=
  h.same rfl rfl rfl rfl

@[simp] theorem failLoads_extends {r0 r : Runtime}  (h : r0.Extends r) :
    r0.Extends (r.failLoads) := by
  have h1 : r0.Extends (r.eachLine Runtime.keepVerdict) := eachLine_extends (fun k r h => keepVerdict_extends k h) h
  have h2 := eachUnit_extends (r0 := r0)
    (f := fun u r =>
      if r.units[u].run = .loading then (r.updUnit u fun x => { x with imageValid := false }).failRun u .area else r)
    (fun u r h => by simp (maxDischargeDepth := 30) [h]) h1
  exact clearFetches_extends (orphanRead_extends (eachLine_extends (fun k r h => dissolve_extends k h) h2))

@[simp] theorem enqueueStartItems_extends {r0 r : Runtime}  (h : r0.Extends r) :
    r0.Extends (r.enqueueStartItems) := by
  exact foldl_extends _ (fun r f h => enqueue_extends _ h) _ (enqueue_extends _ (enqueue_extends _ h))

@[simp] theorem bootExpiry_extends {r0 r : Runtime} (u : UnitIx) (h : r0.Extends r) :
    r0.Extends (r.bootExpiry u) := by
  unfold Runtime.bootExpiry
  (repeat' split) <;> simp (maxDischargeDepth := 30) [h]

@[simp] theorem attendExpiry_extends {r0 r : Runtime} (u : UnitIx) (h : r0.Extends r) :
    r0.Extends (r.attendExpiry u) := by
  unfold Runtime.attendExpiry
  (repeat' split) <;> simp (maxDischargeDepth := 30) [h]

@[simp] theorem pollExpiry_extends {r0 r : Runtime} (u : UnitIx) (h : r0.Extends r) :
    r0.Extends (r.pollExpiry u) := by
  unfold Runtime.pollExpiry
  (repeat' split) <;> simp (maxDischargeDepth := 30) [h]

/-! ### Requests and fetches -/

@[simp] theorem retire_extends {r0 r : Runtime} (u : UnitIx) (tag : Byte) (h : r0.Extends r) :
    r0.Extends (r.retire u tag) := by
  unfold Runtime.retire
  (repeat' split) <;> simp (maxDischargeDepth := 30) [h]

@[simp] theorem reattend_extends {r0 r : Runtime} (u : UnitIx) (h : r0.Extends r) :
    r0.Extends (r.reattend u) := by
  unfold Runtime.reattend
  simp (maxDischargeDepth := 30) [h]

@[simp] theorem reloadEffect_extends {r0 r : Runtime} (u : UnitIx) (on : Bool) (h : r0.Extends r) :
    r0.Extends (r.reloadEffect u on) := by
  unfold Runtime.reloadEffect
  (repeat' split) <;> simp (maxDischargeDepth := 30) [h]

@[simp] theorem reload_extends {r0 r : Runtime} (u : UnitIx) (tag : Byte) (on : Bool) (h : r0.Extends r) :
    r0.Extends (r.reload u tag on) := by
  unfold Runtime.reload
  (repeat' split) <;> simp (maxDischargeDepth := 30) [h]

@[simp] theorem edit_extends {r0 r : Runtime} (u : UnitIx) (tag : Byte) (base : Word) (c : Context) (h : r0.Extends r) :
    r0.Extends (r.edit u tag base c) := by
  unfold Runtime.edit
  (repeat' split) <;> simp (maxDischargeDepth := 30) [h]

@[simp] theorem release_extends {r0 r : Runtime} (u : UnitIx) (tag : Byte) (h : r0.Extends r) :
    r0.Extends (r.release u tag) := by
  unfold Runtime.release
  (repeat' split) <;> simp (maxDischargeDepth := 30) [h]

@[simp] theorem abandonTransfer_extends {r0 r : Runtime} (k : LineIx) (h : r0.Extends r) :
    r0.Extends (r.abandonTransfer k) := by
  unfold Runtime.abandonTransfer
  split
  · exact h
  · exact failRun_extends _ _ h
  · exact foldl_extends _ (fun r m h => failRun_extends _ _ h) _ h

@[simp] theorem markSuspect_extends {r0 r : Runtime} (m : LatchedImage) (h : r0.Extends r) :
    r0.Extends (r.markSuspect m) := by
  refine eachLine_extends (fun k r h => ?_) (setSuspect_extends _ _ h)
  (repeat' split) <;> simp [h]

@[simp] theorem blockHeld_extends {r0 r : Runtime} (k : LineIx) (b : Nat) (h : r0.Extends r) :
    r0.Extends (r.blockHeld k b) := by
  unfold Runtime.blockHeld
  (repeat' (first | split | dsimp only)) <;> simp (maxDischargeDepth := 30) [h]

@[simp] theorem fetched_extends {r0 r : Runtime} (q : FetchRequest) (data : List Byte) (h : r0.Extends r) :
    r0.Extends (r.fetched q data) := by
  unfold Runtime.fetched
  (repeat' (first | split | dsimp only)) <;> simp (maxDischargeDepth := 30) [h]

end Machine

end Sys2Proof
end

