-- ==== Sys2Proof/Laws/Runs.lean ====
section
/-! SUPPORT. What the operations on a line's work do to the unit records: posting, freeing a slot, dissolving a group and
withdrawing a unit change no unit but in its load step and its held work (R135, R151, R162, R163, R170). -/

namespace Sys2Proof

namespace Machine

/-- A unit's record is as it was but for its load step and its held work. -/
def UnitRecord.KeptFrom (x y : UnitRecord) : Prop := y = { x with loadStep := y.loadStep, heldWork := y.heldWork }

/-- Every unit's record is as it was but for its load step and its held work. -/
def Runtime.KeepsUnits (r0 r : Runtime) : Prop := ∀ u : UnitIx, (r0.units[u]).KeptFrom r.units[u]

theorem UnitRecord.KeptFrom.refl (x : UnitRecord) : x.KeptFrom x := rfl

theorem UnitRecord.KeptFrom.trans {x y z : UnitRecord} (h : x.KeptFrom y) (h' : y.KeptFrom z) : x.KeptFrom z := by
  unfold UnitRecord.KeptFrom at *
  rw [h', h]

theorem Runtime.KeepsUnits.refl (r : Runtime) : r.KeepsUnits r := fun _ => .refl _

theorem Runtime.KeepsUnits.trans {a b c : Runtime} (h : a.KeepsUnits b) (h' : b.KeepsUnits c) : a.KeepsUnits c :=
  fun u => (h u).trans (h' u)

/-- Where the unit records are the same, they are kept. -/
theorem Runtime.KeepsUnits.same {r0 r r' : Runtime} (h : r0.KeepsUnits r) (e : r'.units = r.units) :
    r0.KeepsUnits r' := fun u => e ▸ h u

/-- The field that a kept record shows is the one it showed before. -/
theorem Runtime.KeepsUnits.field {α : Type} {r0 r : Runtime} (h : r0.KeepsUnits r) (u : UnitIx) (p : UnitRecord → α)
    (hp : ∀ x a b, p { x with loadStep := a, heldWork := b } = p x) : p r.units[u] = p r0.units[u] := by
  rw [h u]; exact hp _ _ _

@[simp] theorem updLine_keeps {r0 r : Runtime} (k : LineIx) (f : LineRecord → LineRecord) (h : r0.KeepsUnits r) :
    r0.KeepsUnits (r.updLine k f) := h.same (by simp)

@[simp] theorem enqueue_keeps {r0 r : Runtime} (i : Item) (h : r0.KeepsUnits r) : r0.KeepsUnits (r.enqueue i) :=
  h.same (by simp)

theorem updUnit_keeps {r0 r : Runtime} (u : UnitIx) (f : UnitRecord → UnitRecord)
    (hf : ∀ x : UnitRecord, x.KeptFrom (f x)) (h : r0.KeepsUnits r) : r0.KeepsUnits (r.updUnit u f) := by
  intro v
  refine (h v).trans ?_
  by_cases e : v = u
  · subst e; simpa using hf _
  · have : u.val ≠ v.val := fun w => e (Fin.ext w.symm)
    simp [this, UnitRecord.KeptFrom]

theorem foldl_keeps {α : Type} {r0 : Runtime} (f : Runtime → α → Runtime)
    (hf : ∀ r a, r0.KeepsUnits r → r0.KeepsUnits (f r a)) (l : List α) :
    ∀ {r : Runtime}, r0.KeepsUnits r → r0.KeepsUnits (l.foldl f r) := by
  induction l with
  | nil => exact fun h => h
  | cons a l ih => exact fun h => ih (hf _ _ h)

theorem eachUnit_keeps {r0 r : Runtime} {f : UnitIx → Runtime → Runtime}
    (hf : ∀ u r, r0.KeepsUnits r → r0.KeepsUnits (f u r)) (h : r0.KeepsUnits r) : r0.KeepsUnits (r.eachUnit f) :=
  foldl_keeps _ (fun r u => hf u r) _ h

theorem eachLine_keeps {r0 r : Runtime} {f : LineIx → Runtime → Runtime}
    (hf : ∀ k r, r0.KeepsUnits r → r0.KeepsUnits (f k r)) (h : r0.KeepsUnits r) : r0.KeepsUnits (r.eachLine f) :=
  foldl_keeps _ (fun r k => hf k r) _ h

@[simp] theorem post_keeps {r0 r : Runtime} (u : UnitIx) (w : Work) (h : r0.KeepsUnits r) :
    r0.KeepsUnits (r.post u w) := by
  unfold Runtime.post
  split
  · exact updUnit_keeps _ _ (fun _ => rfl) h
  · exact updLine_keeps _ _ h

@[simp] theorem freeSlot_keeps {r0 r : Runtime} (k : LineIx) (h : r0.KeepsUnits r) : r0.KeepsUnits (r.freeSlot k) := by
  refine eachUnit_keeps (fun u r h => ?_) ((updLine_keeps k LineRecord.clearSlot h).same rfl)
  split
  · exact post_keeps _ _ (updUnit_keeps _ _ (fun _ => rfl) h)
  · exact h

@[simp] theorem dissolve_keeps {r0 r : Runtime} (k : LineIx) (h : r0.KeepsUnits r) : r0.KeepsUnits (r.dissolve k) := by
  unfold Runtime.dissolve
  split
  · exact h
  · refine freeSlot_keeps _ (updLine_keeps _ _ (foldl_keeps _ (fun r m h => ?_) _ h))
    exact updUnit_keeps _ _ (fun _ => rfl) h

@[simp] theorem takeOffGroup_keeps {r0 r : Runtime} (k : LineIx) (u : UnitIx) (g : Group) (h : r0.KeepsUnits r) :
    r0.KeepsUnits (r.takeOffGroup k u g) := updLine_keeps _ _ (updUnit_keeps _ _ (fun _ => rfl) h)

@[simp] theorem dissolveEmpty_keeps {r0 r : Runtime} (k : LineIx) (h : r0.KeepsUnits r) :
    r0.KeepsUnits (r.dissolveEmpty k) := by
  unfold Runtime.dissolveEmpty
  (repeat' split) <;> simp [h]

theorem leaveGroup_keeps {r0 r : Runtime} (k : LineIx) (u : UnitIx) {act : Runtime → Runtime}
    (ha : ∀ r, r0.KeepsUnits r → r0.KeepsUnits (act r)) (h : r0.KeepsUnits r) : r0.KeepsUnits (r.leaveGroup k u act) := by
  unfold Runtime.leaveGroup
  split
  · exact ha _ h
  · split
    · exact dissolveEmpty_keeps _ (ha _ (takeOffGroup_keeps _ _ _ h))
    · exact ha _ h

/-- A withdrawal changes no unit record but in load steps and held work (R132, R170). -/
@[simp] theorem withdraw_keeps {r0 r : Runtime} (u : UnitIx) (h : r0.KeepsUnits r) : r0.KeepsUnits (r.withdraw u) := by
  have h1 := updUnit_keeps u (fun x => { x with heldWork := none, loadStep := .idle }) (fun _ => rfl)
    (leaveGroup_keeps r.units[u].config.line u (act := id) (fun _ h => h)
      (updLine_keeps r.units[u].config.line (fun l => if l.serves u then (l.unlist u).abandon else l.unlist u) h))
  unfold Runtime.withdraw
  dsimp only
  split
  · exact freeSlot_keeps _ h1
  · exact h1

end Machine

end Sys2Proof
end

