-- ==== Sys2Proof/Tests/Slice0.lean ====
section
/-! SUPPORT. Tests of the model on small states: the operands each check of WellFormed refuses, the spec's check values
and worked figures, one step of each command, and for every statement with hypotheses a state that meets them. -/

namespace Sys2Proof

namespace Machine

-- One theorem at a time: kernel checks that wait for one another would each hold a thread.
set_option Elab.async false

/-! ### Helpers -/

/-- A record is put in its place. -/
def State.putUnit (u : UnitIx) (x : UnitRecord) (s : State) : State :=
  { s with rt := { s.rt with units := s.rt.units.set u x } }

def State.putLine (k : LineIx) (l : LineRecord) (s : State) : State :=
  { s with rt := { s.rt with lines := s.rt.lines.set k l } }

def State.putFeed (f : FeedIx) (x : FeedRecord) (s : State) : State :=
  { s with feeds := { s.feeds with feed := s.feeds.feed.set f x } }

/-- What a command answers, or the state it met. -/
def State.after (s : State) (c : Instr) : State :=
  match exec c s with
  | .next t => t
  | _ => s

def State.inMode (m : Mode) (s : State) : State := { s with rt := { s.rt with mode := m } }

def State.inSupply (x : SupplyState) (accepted : Bool) (s : State) : State :=
  { s with
    monitor := { s.monitor with supply := x, filter := { accepted := some accepted, candidate := none, differing := false } } }

def State.withDue (d : Due) (s : State) : State := { s with due := [d] }

/-- RUNNING with the supply UP. -/
def tram : State := (State.reset.inMode .running).inSupply .up true

/-- A door's configuration: line 0, address 1, feed 0, priority 3, image 0 (section 10.1). -/
def doorConfig : UnitConfig :=
  { kind := .door, line := 0, address := 1, feed := 0, priority := 3, groupTag := 0, image := 0, ride := 120
    retain := 2400, bootTimeout := 2000 }

/-- A directory entry of a door's image of 200 bytes in blocks of 64. -/
def doorEntry : DirectoryEntry :=
  { address := 0x10000, length := 200, crc := 0x11223344, edition := 12, sizeCode := 0, kindCode := 1 }

/-- A door's unit record in a run state. -/
def door (st : RunState) : UnitRecord :=
  { UnitRecord.reset with
    config := doorConfig, image := latchedImage 0 doorEntry, imageValid := true, run := st, bootCount := some 7
    contextPresent := true, contextSeq := 57, context := Context.zero.set 0 1 }

/-- The door 0 in a run state, its image in the directory copy. -/
def tramDoor (st : RunState) : State :=
  let s := tram.putUnit 0 (door st)
  { s with rt := { s.rt with directory := s.rt.directory.set 0 doorEntry } }

/-- A feed's record in a state, its fault inactive. -/
def feedIn (st : FeedState) : FeedRecord :=
  { FeedRecord.reset with state := st, weight := 3, precharge := 20, settle := 60, cooldown := 2000, tripLimit := 3 }

/-- The 160 samples of a character whose ten bits after the start bit are these, 16 of each. -/
def sampled (bits : BitVec 10) : List SampleRun :=
  (List.range 10).map fun i => { level := bits.getLsbD i, count := 16 }

/-- A high sample and the eight low ones of a start bit. -/
def falling : List SampleRun := [{ level := true, count := 1 }, { level := false, count := 8 }]

/-! ### WellFormed refuses (section 11.2, R102, R172, R183, R188) -/

theorem test_wf_sweep_length : (Instr.sweepBurstComplete (List.replicate 63 0)).wellFormed = false := by decide
theorem test_wf_adopt_length : (Instr.adoptingSweepBurstComplete []).wellFormed = false := by decide
theorem test_wf_header_length : (Instr.headerLoadComplete (List.replicate 255 0)).wellFormed = false := by decide +kernel
theorem test_wf_fetch_empty : (Instr.fetchComplete []).wellFormed = false := by decide
theorem test_wf_fetch_long : (Instr.fetchComplete (List.replicate 1025 0)).wellFormed = false := by decide +kernel
theorem test_wf_run_zero : (Instr.runStart 0).wellFormed = false := by decide
theorem test_wf_run_restart : (Instr.runStart 5).wellFormed = false := by decide
theorem test_wf_recovery : (Instr.runRecovery 0x70).wellFormed = false := by decide
theorem test_wf_stop : (Instr.runStop 1).wellFormed = false := by decide
theorem test_wf_load_header : (Instr.loadHeader 1).wellFormed = false := by decide
theorem test_wf_restart : (Instr.restart 8).wellFormed = false := by decide
theorem test_wf_ack_mode : (Instr.ackMode 4).wellFormed = false := by decide
theorem test_wf_change_ie : (Instr.changeIe 4).wellFormed = false := by decide
theorem test_wf_state_ie : (Instr.stateIe 4).wellFormed = false := by decide
theorem test_wf_change_read : (Instr.changeRead 0).wellFormed = false := by decide
theorem test_wf_register : (Instr.registerWrite 0 0 0).wellFormed = false := by decide
theorem test_wf_frame_transmitted : (Instr.frameTransmitted 0 4096).wellFormed = false := by decide
theorem test_wf_pause_end : (Instr.pauseEnd 0 4096).wellFormed = false := by decide
theorem test_wf_quiet_half : (Instr.quietBreakHalfEnd 0 4096).wellFormed = false := by decide
theorem test_wf_quiet_end : (Instr.quietEnd 0 4096).wellFormed = false := by decide
theorem test_wf_character_clock : (Instr.characterReceived 0 4096 (sampled 1)).wellFormed = false := by decide +kernel
theorem test_wf_character_count : (Instr.characterReceived 0 0 [{ level := true, count := 159 }]).wellFormed = false := by
  decide +kernel
theorem test_wf_character_break : (Instr.characterReceived 0 0 (sampled 0)).wellFormed = false := by decide +kernel
theorem test_wf_break : (Instr.breakReceived 0 4096).wellFormed = false := by decide
theorem test_wf_first_reply : (Instr.firstReplyTimeout 0 4096).wellFormed = false := by decide
theorem test_wf_inter_character : (Instr.interCharacterTimeout 0 4096).wellFormed = false := by decide
theorem test_wf_discard : (Instr.discardEnd 0 4096).wellFormed = false := by decide
theorem test_wf_high : (Instr.highTimerExpiry 0 { clk := 4096, samples := [] }).wellFormed = false := by decide
theorem test_wf_start_bit_clock : (Instr.startBitConfirmed 0 { clk := 4096, samples := falling }).wellFormed = false := by
  decide +kernel
theorem test_wf_start_bit_level :
    (Instr.startBitConfirmed 0 { clk := 9, samples := [{ level := true, count := 1 }] }).wellFormed = false := by
  decide +kernel

/-! ### The spec's check values and worked figures -/

/-- The ASCII digits 1 to 9. -/
def digits : List Byte := [0x31, 0x32, 0x33, 0x34, 0x35, 0x36, 0x37, 0x38, 0x39]

/-- R105's check of the computation. -/
theorem test_crc16_check : crc16 digits = 0x29B1 := by decide +kernel

/-- R166's check of the computation. -/
theorem test_crc32_check : crc32Final (crc32Over crc32Start digits) = 0xCBF43926 := by decide +kernel

/-- A unit with figures, its image held. -/
def figures (ride retain : Nat) : UnitRecord :=
  { door .riding with config := { doorConfig with ride := ride, retain := retain } }

def capture (g : Nat) : Capture := { duration := g, overRange := false }

def derated (d : Nat) : Settings := { Settings.default with derate := d }

/-- Section 1.7: the door at derate 205. -/
theorem test_class_door_205 :
    rideThreshold (derated 205) (figures 120 2400).config = 96 ∧ holdThreshold (derated 205) (figures 120 2400).config = 1921
      ∧ classify (derated 205) (capture 90) (figures 120 2400) = .warm := by decide +kernel

/-- Section 1.7: the display at derate 205. -/
theorem test_class_display_205 :
    classify (derated 205) (capture 90) (figures 40 400) = .warm
      ∧ classify (derated 205) (capture 400) (figures 40 400) = .cold := by decide +kernel

/-- Section 1.7: derate 256. -/
theorem test_class_256 :
    classify (derated 256) (capture 90) (figures 120 2400) = .rode
      ∧ classify (derated 256) (capture 400) (figures 40 400) = .cold := by decide +kernel

/-- Section 1.7: retention shorter than ride-through. -/
theorem test_class_short_retention :
    holdThreshold (derated 205) (figures 1000 600).config = 800 := by decide +kernel

/-- R146: the last block of 200 bytes in blocks of 64 holds 8. -/
theorem test_block_lengths :
    (latchedImage 0 doorEntry).blockCount = 4 ∧ blockLength (latchedImage 0 doorEntry) 2 = 64
      ∧ blockLength (latchedImage 0 doorEntry) 3 = 8 := by decide +kernel

/-- R103: the 11 bits of the lead character, 0xC5: start bit, 1 0 1 0 0 0 1 1, parity 0, stop bit. -/
theorem test_character_bits :
    characterBits 0xC5 = [false, true, false, true, false, false, false, true, true, false, true] := by decide

/-- R107, R111: the eighth low sample confirms a start bit, seven do not, and a high eighth drops the candidate; a low
sample sets the high time to 0. -/
theorem test_samples :
    Hunt.high.confirms (sampleLevels falling) = true ∧ Hunt.high.hear (List.replicate 7 false) = some (.candidate 7)
      ∧ Hunt.high.hear (List.replicate 7 false ++ [true]) = some .high
      ∧ highAfter 4 [true, false, true, true] 100 = 8 := by decide

/-- R103, R107: the nine bits of a character hold an even number of ones, and its stop bit is high. -/
theorem test_character_status :
    rxChar 0b1011000101 true = { data := 0xC5, parity := false, framing := false, overrun := true }
      ∧ (rxChar 0b1111000101 false).parity = true ∧ (rxChar 0b0011000101 false).framing = true := by decide +kernel

/-- R104, R105: a HELLO_ASK to address 1 with sequence byte 0: lead, address and kind, sequence, length 0, CRC-16. -/
theorem test_hello_ask :
    (frameCharacters { address := 1, kind := .helloAsk, seq := 0, payload := [], replyExpected := true, pause := 0 }).take 5
      = [0xC5, 0x11, 0x00, 0x00, 0x00] := by decide +kernel

/-! ### One step of a command -/

/-- R207: a link reset keeps a feed that is ON. -/
theorem test_link_reset :
    ((tram.putFeed 2 (feedIn .on)).after .linkReset).feeds.feed[2].state = .on
      ∧ ((tram.putFeed 2 (feedIn .on)).after (.restart 4)).feeds.feed[2].state = .off := by decide +kernel

/-- R3, R8: the second successive low sample takes the supply to PENDING. -/
theorem test_tick_loss :
    ((tram.after (.tick false 0xFFFF)).after (.tick false 0xFFFF)).monitor.supply = .pending
      ∧ ((tram.after (.tick false 0xFFFF)).after (.tick true 0xFFFF)).monitor.supply = .up := by decide +kernel

/-- R2: the uptime goes up when the divider passes from 3999 to 0. -/
theorem test_uptime :
    let s : State := { tram with clock := { prescaler := 0, seconds := 3999, uptime := 41 } }
    ((s.after (.tick true 0xFFFF)).after .uptimeSecond).clock.uptime = 42
      ∧ ((s.after (.tick true 0xFFFF)).after .uptimeSecond).clock.seconds = 0 := by decide +kernel

/-- R10: the comparison finds the gap counter at min gap. -/
theorem test_gap_declared :
    let s := tram.inSupply .pending false
    let t := { s with monitor := { s.monitor with gapCounter := 7 } }.after (.tick false 0xFFFF)
    t.monitor.gapCounter = 8 ∧ (t.after .gapDeclared).monitor.supply = .gap
      ∧ (t.after .gapDeclared).port.events = 1 := by decide +kernel

/-- R85: at the precharge MAIN_n goes on, at the settle the feed is ON. -/
theorem test_soft_start :
    let x := feedIn .softstart
    ((tram.putFeed 0 { x with timer := 19 }).after (.tick true 0xFFFF)).due = [.mainSwitchOn 0]
      ∧ ((tram.putFeed 0 { x with timer := 59 }).after (.tick true 0xFFFF)).due = [.feedReachedOn 0]
      ∧ (((tram.putFeed 0 { x with timer := 59 }).after (.tick true 0xFFFF)).after (.feedReachedOn 0)).feeds.feed[0].state
          = .on := by decide +kernel

/-- R60: an attend timer's expiry posts the next HELLO_ASK. -/
theorem test_attend_timer :
    let s := tram.putUnit 0 { door .attending with attendTimer := some 39 }
    ((s.after (.tick true 0xFFFF)).after (.attendTimerExpiry 0)).rt.lines[0].waitList = [.single 0 .hello] := by
  decide +kernel

/-- R202: RUN written as 1 in STOPPED latches the area base and begins with a header load; CONTROL reads RUN at 1. -/
theorem test_run_start :
    let s : State := { State.reset with port := { Port.reset with areaLow := 0x12345000, areaHigh := 1 } }
    (s.after (.runStart 0x11)).port.base = 0x112345000 ∧ (s.after (.runStart 0x11)).port.job = some .header
      ∧ (s.after (.runStart 0x11)).controlValue = 0x11 := by decide +kernel

/-- R173: the low 12 bits of AREA_LOW are not stored. -/
theorem test_area_low : (tram.after (.registerWrite 0 0xF 0x12345678)).readRegister 0 = 0x12345000 := by decide +kernel

/-- R196: a write to CHANGE clears the bits written as 1. -/
theorem test_change_write :
    let s : State := { tram with port := { tram.port with change := 0b1110, ackExplicit := true } }
    (s.after (.changeWrite 0b0110)).port.change = 0b1000 ∧ (s.after (.changeRead 0xF)).port.change = 0b1110 := by
  decide +kernel

/-- R198: a write to STATE clears the event bits written as 1. -/
theorem test_state_write :
    let s : State := { tram with port := { tram.port with events := 0b10101 } }
    (s.after (.stateWrite 0b00101)).port.events = 0b10000 := by decide +kernel

/-- R191, R194: a unit's result write raises its result edition and, once complete, sets its CHANGE bit. -/
theorem test_write :
    let s : State := { tramDoor .running with rt := { (tramDoor .running).rt with queue := [.unitResult 0] } }
    (s.after (.writeBegin true)).rt.units[0].resultEdition = 1
      ∧ ((s.after (.writeBegin true)).after .writeComplete).port.change = 1 := by decide +kernel

/-- A poll of the door 0 in AWAITING on line 0. -/
def polling : State :=
  let s := tramDoor .running
  s.putLine 0
    { LineRecord.reset with
      state := .awaiting, quietOwed := false, firstReply := some 14079, seqCounter := 6, hunt := .high
      frame := some { address := 1, kind := .statusAsk, seq := 5, payload := [], replyExpected := true, pause := 0 }
      txn := some
        { contender := .single 0 .poll, kind := .statusAsk, address := 1, block := 0, limit := 1, made := 1
          lastFailure := none, attempts := [{ seq := 5, recorded := some (57, (door .running).context) }] } }

/-- R69, R112: 20 character times of 704 clocks without a reply count a poll miss. -/
theorem test_first_reply_timeout :
    (polling.after (.firstReplyTimeout 0 0)).rt.units[0].pollMisses = 0
      ∧ (polling.after (.firstReplyTimeout 0 1)).rt.units[0].pollMisses = 1
      ∧ (polling.after (.firstReplyTimeout 0 1)).rt.lines[0].state = .idle := by decide +kernel

/-- R107, R112: nine samples of 4 clocks confirm a start bit in AWAITING, which takes the line to RECEIVING; 160 more make
the lead character, which begins a frame (R113). -/
theorem test_character :
    let t := (polling.after (.startBitConfirmed 0 { clk := 36, samples := falling })).after
      (.characterReceived 0 640 (sampled 0b1011000101))
    t.rt.lines[0].state = .receiving ∧ t.rt.lines[0].assembly = .collecting [0xC5]
      ∧ t.rt.lines[0].firstReply = some 14115 := by decide +kernel

/-- R110, R123: a break in AWAITING takes the line to FAULTED, and the poll has failed. -/
theorem test_break :
    let t := (polling.after (.startBitConfirmed 0 { clk := 36, samples := falling })).after (.breakReceived 0 640)
    t.rt.lines[0].state = .faulted ∧ t.rt.lines[0].faults = 1 ∧ t.rt.units[0].pollMisses = 1 := by decide +kernel

/-- R124, R118: the arbiter's choice after a reset is preceded by a QUIET of two halves of 2 character times. -/
theorem test_arbiter_quiet :
    let s := (tramDoor .attending).putLine 0 { LineRecord.reset with waitList := [.single 0 .hello] }
    let t := s.after (.arbiterChoice 0)
    t.rt.lines[0].state = .quiet ∧ (t.after (.quietBreakHalfEnd 0 1407)).rt.lines[0].idleHalf = false
      ∧ (t.after (.quietBreakHalfEnd 0 1408)).rt.lines[0].idleHalf = true
      ∧ ((t.after (.quietBreakHalfEnd 0 1408)).after (.quietEnd 0 1408)).rt.lines[0].state = .sending := by
  decide +kernel

/-! ### For every statement with hypotheses, a state that meets them -/

/-- A full budget: feed 0 holds 8 of 8, a larger budget is pending, and feed 1 waits. -/
def fullBudget : State :=
  let s := (tram.putFeed 0 { feedIn .softstart with weight := 8 }).putFeed 1 (feedIn .waiting)
  { s with
    feeds := { s.feeds with admission := [1], pendingBudget := some 63 }
    due := [.feedReachedOn 0], pending := [.tick false 0xFFFE] }

theorem fullBudget_lists : fullBudget.feeds.ListsTheWaiting := by
  unfold FeedControl.ListsTheWaiting; decide +kernel

theorem witness_StepKeepsTheBudget : fullBudget.feeds.WithinBudget ∧ ∃ t, step fullBudget = .next t := by
  refine ⟨⟨by decide +kernel, by decide +kernel, by decide +kernel, ?_⟩, _, rfl⟩
  intro b h
  cases (show some 63 = some b from h)
  decide +kernel

theorem witness_StepKeepsTheAdmissionList : fullBudget.feeds.ListsTheWaiting ∧ ∃ t, step fullBudget = .next t :=
  ⟨fullBudget_lists, _, rfl⟩

/-- An item of the queue returns to it: the outstanding write fails. -/
def returning : State :=
  { tram with
    rt := { tram.rt with queue := [.gapList, .unitResult 0] }
    port := { tram.port with write := some { item := .unitResult 0, live := true, timer := 4, writes := [] } }
    due := [.completionTimeout .write], pending := [.busErrorCompletion .write] }

theorem witness_StepKeepsTheWriteQueue : returning.rt.QueuesOnce ∧ ∃ t, step returning = .next t := by
  refine ⟨?_, _, rfl⟩
  unfold Runtime.QueuesOnce; decide +kernel

/-- SETTLING with an over-range capture at its last tick; the door 0 rides, entry 1 rides with its probe pending, and
feed 0 is ON, feed 1 shed. -/
def settling : State :=
  let s := ((((tramDoor .riding).inSupply .settling true).putUnit 1
    { door .riding with config := { doorConfig with feed := 1 }, probePending := true }).putFeed 0 (feedIn .on)).putFeed 1
      (feedIn .shed)
  { s with
    rt := { s.rt with lines := s.rt.lines.map LineRecord.stopForGap }
    monitor := { s.monitor with gapCounter := 65535, settleTimer := 200, capture := some { duration := 65535, overRange := true } }
    due := [.settlingEnd], pending := [.tick true 0xFFFF] }

theorem witness_StepKeepsTheMonitorSound : settling.monitor.Sound ∧ ∃ t, step settling = .next t := by
  refine ⟨⟨by decide +kernel, by decide +kernel, by decide +kernel, by decide +kernel, by decide +kernel, ?_, ?_⟩, _, rfl⟩
  · intro c h
    cases (show some { duration := 65535, overRange := true } = some c from h)
    decide
  · decide +kernel

theorem witness_StepKeepsTheGapQuiet : settling.QuietInGap ∧ settling.monitor.supply = .settling ∧ ∃ t, step settling = .next t := by
  refine ⟨fun _ => ?_, rfl, _, rfl⟩
  unfold LineRecord.Stopped; decide +kernel

/-- Line 0 is 100 clocks into the fourth character of a frame when a gap stops it. -/
def cutFrame : LineRecord :=
  { polling.rt.lines[0] with state := .sending, phaseTimer := 3 * 704 + 100, firstReply := none }

/-- R110, R120: the character is completed, with its bits as they are, and DE_n released at its end. -/
theorem test_cut :
    ((cutFrame.stopForGap).elapse 603).driverEnabled = true ∧ ((cutFrame.stopForGap).elapse 604).driverEnabled = false
      ∧ ((cutFrame.stopForGap).elapse 100).txdHigh = (cutFrame.elapse 100).txdHigh
      ∧ ((cutFrame.stopForGap).elapse 604).txdHigh = true := by decide +kernel

theorem witness_RestartKeepsAndClears :
    (∃ v : Word, Instr.linkReset = .restart v ∨ Instr.linkReset = .linkReset ∧ v.getLsbD 3 = true)
      ∧ (fullBudget.putFeed 3 (feedIn .on)).feeds.feed[3].state = .on :=
  ⟨⟨8, by decide⟩, by decide +kernel⟩

theorem witness_TicksCountTime :
    tram.due = [] ∧ tram.monitor.filter.accepted = some true
      ∧ (∀ f : FeedIx, tram.feeds.feed[f].faultActive = false ∧ (0xFFFF : BitVec 16).getLsbD f.val = true)
      ∧ Due.uptimeSecond ∈ (tram.withDue .uptimeSecond).due
      ∧ ({ tram with due := [.uptimeSecond], clock := { tram.clock with seconds := 3999, uptime := 4294967295 } } : State).clock.seconds
          = 3999 := by decide +kernel

theorem witness_FiltersTakeASample :
    ({ accepted := some true, candidate := none, differing := true } : SupplyFilter).accepted = some true
      ∧ ({ accepted := none, candidate := some false, differing := false } : SupplyFilter).candidate = some false := by decide

/-- The second differing sample in a supply state. -/
def differing (x : SupplyState) (accepted : Bool) (n : Nat) : State :=
  let s := tram.inSupply x accepted
  { s with
    monitor := { s.monitor with gapCounter := n, settleTimer := n, filter := { s.monitor.filter with differing := true } } }

theorem witness_TickMovesTheSupplyState :
    (∀ x ∈ [(SupplyState.up, true), (.settling, true), (.pending, false), (.gap, false)],
      (differing x.1 x.2 65534).due = [] ∧ (differing x.1 x.2 65534).monitor.filter.accepted = some x.2
        ∧ (differing x.1 x.2 65534).monitor.filter.differing = true ∧ (differing x.1 x.2 65534).monitor.supply = x.1)
      ∧ tram.monitor.filter.accepted = some true ∧ tram.monitor.filter.differing = false
      ∧ (∀ a ∈ [none, some true, some false],
          let s : State := { State.reset with
            monitor := { State.reset.monitor with filter := { State.reset.monitor.filter with candidate := a } } }
          s.due = [] ∧ s.monitor.filter.accepted = none ∧ s.monitor.supply = .startup ∧ s.monitor.filter.candidate = a
            ∧ (s.feeds.sampleAll 0xFFFF).tripping = []) := by decide +kernel

/-- PENDING with its gap due: the door 0 is loading alone, entry 1 runs with an edit in flight, entry 2 has failed, entry
3 rides; feed 0 starts with a budget pending. -/
def pendingGap : State :=
  let s := (((((tramDoor .loading).putUnit 1
    { door .running with inFlight := some { request := .contextEdit, tag := 9 } }).putUnit 2
      { door .failed with cause := .noReply, inFlight := some { request := .enlist, tag := 3 } }).putUnit 3 (door .riding)).putFeed 0
        (feedIn .softstart)).inSupply .pending false
  { (s.putLine 0 { LineRecord.reset with slot := .alone 0 }).withDue .gapDeclared with
    feeds := { s.feeds with pendingBudget := some 1 } }

theorem witness_GapDeclaration :
    Due.gapDeclared ∈ pendingGap.due ∧ pendingGap.monitor.supply = .pending ∧ pendingGap.rt.units[0].run = .loading
      ∧ pendingGap.rt.units[1].inFlight = some { request := .contextEdit, tag := 9 } ∧ pendingGap.rt.units[2].run = .failed
      ∧ pendingGap.rt.units[3].run = .riding ∧ pendingGap.feeds.feed[0].state = .softstart
      ∧ pendingGap.feeds.pendingBudget.isSome = true ∧ pendingGap.rt.mode ≠ .stopped := by decide +kernel

/-- GAP with the shed command due and feed 0 ON. -/
def shedding : State := ((tram.putFeed 0 (feedIn .on)).inSupply .gap false).withDue .shedCommand

theorem witness_ShedCommandSheds :
    Due.shedCommand ∈ shedding.due ∧ shedding.monitor.supply = .gap ∧ shedding.monitor.shed = false
      ∧ shedding.feeds.feed[0].state = .on ∧ shedding.rt.mode ≠ .stopped := by decide +kernel

/-- SETTLING after a gap of some ticks: on the feed that is ON, the door 0 rides, entry 2 rides with its probe pending,
and entry 3 with an image whose directory entry is not valid. -/
def settled (ticks : Nat) : State :=
  let s := (settling.putUnit 2 { door .riding with probePending := true }).putUnit 3
    { door .riding with config := { doorConfig with image := 1 } }
  { s with monitor := { s.monitor with capture := some { duration := ticks, overRange := false } } }

theorem witness_SettlingEnds :
    (Due.settlingEnd ∈ settling.due ∧ settling.monitor.supply = .settling
      ∧ settling.monitor.capture = some { duration := 65535, overRange := true } ∧ settling.feeds.ListsTheWaiting
      ∧ settling.rt.units[1].run = .riding ∧ settling.feeds.feed[settling.rt.units[1].config.feed].state ≠ .on
      ∧ settling.feeds.feed[1].state = .shed ∧ settling.rt.lines[7].state = .stopped)
    ∧ ∀ x ∈ [(8, GapClass.rode), (500, .warm), (65000, .cold)],
      let s := settled x.1
      Due.settlingEnd ∈ s.due ∧ s.monitor.capture = some { duration := x.1, overRange := false }
        ∧ (∀ u ∈ [(0 : UnitIx), 2, 3], s.rt.units[u].run = .riding ∧ s.feeds.feed[s.rt.units[u].config.feed].state = .on)
        ∧ s.rt.units[0].probePending = false ∧ s.rt.units[2].probePending = true ∧ s.rt.unitLatchable 0 = true
        ∧ s.rt.unitLatchable 3 = false ∧ s.rt.sameImage 0 = true
        ∧ classify s.rt.settings { duration := x.1, overRange := false } s.rt.units[0] = x.2 := by
  unfold FeedControl.ListsTheWaiting; decide +kernel

theorem witness_GapClasses :
    (figures 120 2400).forceCold = false ∧ (figures 120 2400).imageValid = true ∧ (capture 112).overRange = false
      ∧ (capture 112).duration + (derated 256).guard = 120 * 256 / 256
      ∧ (capture 2392).duration + (derated 256).guard = 2400 * 256 / 256
      ∧ (figures 65535 65535).config.retain ≤ (figures 65535 65535).config.ride
      ∧ (figures 65535 65535).config.ride * (derated 256).derate = 16776960 := by decide +kernel

theorem witness_AdmissionIsConsidered :
    fullBudget.feeds.ListsTheWaiting ∧ fullBudget.feeds.candidateOf fullBudget.feeds.admission = some 1
      ∧ fullBudget.feeds.shares = fullBudget.feeds.budget ∧ tram.feeds.admission = [] :=
  ⟨fullBudget_lists, by decide +kernel⟩

/-- A feed in SOFTSTART with a timer and a due step. -/
def starting (d : Due) (timer : Nat) : State := (tram.putFeed 0 { feedIn .softstart with timer := timer }).withDue d

theorem witness_MainSwitchGoesOn :
    let s := starting (.mainSwitchOn 0) 20
    Due.mainSwitchOn 0 ∈ s.due ∧ s.feeds.feed[0].state = .softstart ∧ s.feeds.feed[0].mainOn = false
      ∧ s.feeds.feed[0].timer = s.feeds.feed[0].precharge := by decide +kernel

/-- Feed 0, alone in SOFTSTART with a budget pending that equals the one in force, reaches ON with the door 0 waiting for
it in a class, entry 1 with its probe pending, and entry 2 with an image
whose directory entry is not valid. -/
def reaching (c : GapClass) : State :=
  (((starting (.feedReachedOn 0) 60).putUnit 0 { door .waitFeed with runClass := c }).putUnit 1
    { door .waitFeed with probePending := true, image := { latchedImage 0 doorEntry with crc := 1 } }).putUnit 2
      { door .waitFeed with config := { doorConfig with image := 1 } } |> fun s =>
    { s with
      rt := { s.rt with directory := s.rt.directory.set 0 doorEntry }
      feeds := { s.feeds with pendingBudget := some s.feeds.budget } }

theorem witness_FeedReachesOn :
    ∀ c ∈ [GapClass.rode, .warm, .cold],
      let s := reaching c
      Due.feedReachedOn 0 ∈ s.due ∧ s.feeds.feed[0].state = .softstart ∧ s.feeds.feed[0].timer = s.feeds.feed[0].settle
        ∧ (s.feeds.admission.Nodup ∧ ∀ f : FeedIx, f ∈ s.feeds.admission ↔ s.feeds.feed[f].state = .waiting)
        ∧ (∀ u ∈ [(0 : UnitIx), 1, 2], s.rt.units[u].run = .waitFeed ∧ s.rt.units[u].config.feed = 0)
        ∧ s.rt.units[0].runClass = c ∧ s.rt.units[0].probePending = false ∧ s.rt.units[1].probePending = true
        ∧ s.rt.unitLatchable 0 = true ∧ s.rt.unitLatchable 1 = true ∧ s.rt.unitLatchable 2 = false
        ∧ s.rt.sameImage 0 = true ∧ s.rt.sameImage 1 = false ∧ s.rt.units[1].imageValid = true
        ∧ (s.rt.lines[s.rt.units[0].config.line]).serves 0 = false
        ∧ s.feeds.pendingBudget.isSome = true ∧ (∀ g : FeedIx, g ≠ 0 → s.feeds.feed[g].state ≠ .softstart)
        ∧ s.rt.mode ≠ .stopped := by decide +kernel

/-- R84, R190: a pending budget equal to the one in force takes force, and the header status is handed. -/
theorem test_equal_budget :
    let t := (reaching .rode).after (.feedReachedOn 0)
    t.feeds.pendingBudget = none ∧ t.feeds.budget = (reaching .rode).feeds.budget ∧ Item.headerStatus ∈ t.rt.queue := by
  decide +kernel

/-- Feed 0 at the end of its cooldown, with a number of trips of the limit 3. -/
def cooled (trips : Nat) : State :=
  (tram.putFeed 0 { feedIn .tripped with timer := 2000, tripCount := trips }).withDue (.cooldownEnd 0)

theorem witness_CooldownEnds :
    ∀ n ∈ [2, 3], Due.cooldownEnd 0 ∈ (cooled n).due ∧ (cooled n).feeds.feed[0].state = .tripped
      ∧ (cooled n).feeds.feed[0].cooldown ≤ (cooled n).feeds.feed[0].timer ∧ (cooled n).feeds.feed[0].faultActive = false
      ∧ ((cooled n).feeds.admission.Nodup
        ∧ ∀ f : FeedIx, f ∈ (cooled n).feeds.admission ↔ (cooled n).feeds.feed[f].state = .waiting) := by decide +kernel

theorem witness_ProvingTimeClearsTheTrips :
    let s := (tram.putFeed 0 { feedIn .on with tripCount := 255, proving := 40000 }).withDue (.provingTimeReached 0)
    Due.provingTimeReached 0 ∈ s.due ∧ s.feeds.feed[0].state = .on ∧ 1 ≤ s.feeds.feed[0].tripCount
      ∧ s.feeds.feed[0].tripCount ≤ 255 := by decide +kernel

/-- Feed 0 ON with one active sample of its fault, and the door 0 on it in service. -/
def faulty : State := (tramDoor .running).putFeed 0 { feedIn .on with faultDiffering := true }

/-- No line has a group. -/
theorem faulty_steps (u : UnitIx) : faulty.rt.StepsOfItsGroup u := by
  intro k g h
  have free : ∀ k : LineIx, (faulty.rt.lines[k]).slot = .free := by decide +kernel
  exact absurd h (by rw [free k]; exact Slot.noConfusion)

theorem witness_FaultedFeedTrips :
    faulty.due = [] ∧ faulty.feeds.ListsTheWaiting ∧ faulty.feeds.feed[0].state = .on
      ∧ (0xFFFE : BitVec 16).getLsbD 0 = false ∧ faulty.feeds.feed[0].faultDiffering = true
      ∧ faulty.monitor.filter.accepted.isSome = true ∧ faulty.rt.units[0].config.feed = 0
      ∧ faulty.rt.units[0].run ≠ .unmanaged ∧ faulty.rt.StepsOfItsGroup 0 := by
  refine ⟨?_, ?_, ?_, ?_, ?_, ?_, ?_, ?_, faulty_steps 0⟩ <;> first | decide +kernel | skip
  unfold FeedControl.ListsTheWaiting; decide +kernel

theorem witness_FeedRequestAnswers :
    ∀ x ∈ [FeedState.off, .softstart, .on, .shed, .tripped, .lockedOff],
      (tram.putFeed 0 (feedIn x)).feeds.feed[0].state = x ∧ ((tram.putFeed 0 (feedIn x)).feeds.admission.Nodup
        ∧ ∀ f : FeedIx, f ∈ (tram.putFeed 0 (feedIn x)).feeds.admission
            ↔ (tram.putFeed 0 (feedIn x)).feeds.feed[f].state = .waiting) := by decide +kernel

/-- FEED_OFF meets the feed ON with the door 0 on it in service. -/
theorem witness_FeedRequestAnswers_off :
    faulty.feeds.feed[0].state = .on ∧ faulty.rt.units[0].config.feed = 0 ∧ faulty.rt.units[0].run ≠ .unmanaged
      ∧ faulty.rt.units[1].run = .unmanaged ∧ faulty.rt.StepsOfItsGroup 0 ∧ faulty.rt.StepsOfItsGroup 1 :=
  ⟨by decide +kernel, by decide +kernel, by decide +kernel, by decide +kernel, faulty_steps 0, faulty_steps 1⟩

/-- The door 0 in ATTENDING at its boot timeout, its RELOAD in flight. -/
def booting : State :=
  ((tramDoor .attending).putUnit 0
    { door .attending with bootTimer := some 2000, inFlight := some { request := .reload, tag := 4 } }).withDue (.bootTimeout 0)

/-- The same with its HELLO_ASK outstanding. -/
def bootingBusy : State :=
  booting.putLine 0 { polling.rt.lines[0] with
    txn := some { contender := .single 0 .hello, kind := .helloAsk, address := 1, block := 0, limit := 1, made := 1
                  lastFailure := none, attempts := [] } }

theorem witness_BootTimeoutEnds :
    Due.bootTimeout 0 ∈ booting.due ∧ booting.rt.units[0].run = .attending
      ∧ booting.rt.units[0].bootTimer = some booting.rt.units[0].config.bootTimeout
      ∧ (booting.rt.lines[0]).serves 0 = false ∧ Due.bootTimeout 0 ∈ bootingBusy.due
      ∧ bootingBusy.rt.units[0].bootTimer = some bootingBusy.rt.units[0].config.bootTimeout
      ∧ (bootingBusy.rt.lines[0]).serves 0 = true ∧ bootingBusy.rt.units[0].run = .attending := by decide +kernel

theorem witness_TimersPostWork :
    let a := (tram.putUnit 0 { door .probing with attendTimer := some 1 }).withDue (.attendTimerExpiry 0)
    let p := (tram.putUnit 0 { door .held with pollTimer := some 65535 }).withDue (.pollTimerExpiry 0)
    (a.rt.lines[0]).waits 0 = false ∧ (a.rt.lines[0]).serves 0 = false ∧ Due.attendTimerExpiry 0 ∈ a.due
      ∧ a.rt.units[0].run = .probing ∧ a.rt.units[0].attendTimer = some (0 + 1) ∧ Due.pollTimerExpiry 0 ∈ p.due
      ∧ p.rt.units[0].run = .held ∧ p.rt.units[0].pollTimer = some (65534 + 1) := by decide +kernel

/-- A sweep's read burst is outstanding in a mode; the door 0 is loading alone, and a result item waits. -/
def reading (user : ReadUser) (length timer : Nat) : State :=
  let s := (tramDoor .loading).putLine 0 { LineRecord.reset with slot := .alone 0, crc := some 0xFFFFFFFF, waitBlock := some 0 }
  { s with
    rt := { s.rt with
      read := some { user := user, live := true, timer := timer, address := 0, length := length }
      queue := [.unitResult 0] }
    due := [.completionTimeout .read] }

/-- The header load of a recovery. -/
def recovery (timer : Nat) : State :=
  { (reading .header 256 timer).inMode .areaFault with
    port := { (reading .header 256 timer).port with recovering := true, job := some .header } }

/-- A read burst whose user has ended. -/
def ended : State :=
  { tram with
    rt := { tram.rt with read := some { user := .header, live := false, timer := 4, address := 0, length := 256 } } }

theorem witness_FailedReadIsAnAreaFault :
    (∃ b, (reading .header 256 4).rt.read = some b ∧ b.live = true ∧ 4 ≤ b.timer)
      ∧ Due.completionTimeout .read ∈ (reading .header 256 4).due ∧ (reading .header 256 4).rt.mode = .running
      ∧ (reading .header 256 4).rt.units[0].run = .loading ∧ (reading .header 256 4).rt.units[1].run ≠ .loading
      ∧ (∃ b, (recovery 4).rt.read = some b ∧ b.live = true ∧ 4 ≤ b.timer ∧ b.user = .header)
      ∧ Due.completionTimeout .read ∈ (recovery 4).due ∧ (recovery 4).rt.mode = .areaFault
      ∧ (recovery 4).port.starting = false ∧ (recovery 4).port.recovering = true
      ∧ (∃ b, ended.rt.read = some b ∧ b.live = false) :=
  ⟨⟨_, rfl, rfl, by decide⟩, by decide +kernel, by decide +kernel, by decide +kernel, by decide +kernel,
    ⟨_, rfl, rfl, by decide, rfl⟩, by decide +kernel, by decide +kernel, by decide +kernel, by decide +kernel, _, rfl, rfl⟩

theorem witness_FailedWriteReturnsItsItem :
    (∃ w, returning.port.write = some w ∧ w.live = true ∧ 4 ≤ w.timer) ∧ Due.completionTimeout .write ∈ returning.due
      ∧ returning.rt.mode = .running ∧ Item.unitResult 0 ∈ returning.rt.queue
      ∧ (returning.inMode .areaFault).rt.mode = .areaFault ∧ (returning.inMode .areaFault).port.starting = false
      ∧ (∃ w, ({ returning with
          port := { returning.port with
            write := some { item := .gapList, live := false, timer := 9, writes := [] } } } : State).port.write = some w
          ∧ w.live = false) :=
  ⟨⟨_, rfl, rfl, by decide⟩, by decide +kernel, rfl, by decide +kernel, rfl, rfl, _, rfl, rfl⟩

/-- The sweep timer has reached its interval. -/
def sweepDue : State :=
  { tram with port := { tram.port with sweepTimerOn := true, sweepTimer := 1 }, due := [.sweepTimerExpiry] }

theorem witness_JobsAreWanted :
    Due.sweepTimerExpiry ∈ sweepDue.due ∧ sweepDue.port.sweepTimerOn = true ∧ 1 ≤ sweepDue.port.sweepTimer
      ∧ sweepDue.port.sweeping = false ∧ sweepDue.rt.mode = .running ∧ State.reset.rt.mode ≠ .running
      ∧ (3 : Word).getLsbD 0 = true ∧ (3 : Word).getLsbD 1 = true ∧ (3 : Word).getLsbD 2 = false := by decide +kernel

/-- A fetch request of line 0. -/
def request : FetchRequest := { line := 0, block := 0, second := false, firstPass := true, address := 0x10000, length := 64 }

/-- Both claimants wait for the read path. -/
def sharing (last : Bool) : State :=
  { tram with
    rt := { tram.rt with fetchList := [request] }
    port := { tram.port with job := some (.sweep 33), engineHadLast := last } }

theorem witness_ReadBurstsAreShared :
    (sharing false).rt.read = none ∧ (sharing false).port.job = some (.sweep 33) ∧ (sharing false).port.engineHadLast = false
      ∧ (sharing true).fetchWaits = some request ∧ (sharing true).port.engineHadLast = true
      ∧ (sharing true).rt.mode = .running ∧ (reading .header 256 0).rt.read.isSome = true := by decide +kernel

theorem witness_SweepBurstsAreActedOn :
    (∀ n ∈ [0, 1], ∃ b, (reading (.sweep n) 512 0).rt.read = some b ∧ b.user = .sweep n ∧ b.live = true
        ∧ (List.replicate 512 (0xFF : Byte)).length = b.length)
      ∧ (∃ b, (reading (.sweep 33) 64 0).rt.read = some b ∧ b.user = .sweep ((31 : UnitIx).val + 2) ∧ b.live = true
        ∧ (List.replicate 64 (0 : Byte)).length = b.length)
      ∧ unitRequestTagAt (List.replicate 64 0) = 0 :=
  ⟨fun _ _ => ⟨_, rfl, rfl, rfl, List.length_replicate⟩, ⟨_, rfl, rfl, rfl, by decide +kernel⟩, by decide +kernel⟩

/-- 16 feed entries of one request code and tag. -/
def feedBytes (code tag : Byte) : List Byte :=
  (List.replicate 16 ([3, 3, 20, 60, 0xD0, 7, 3, 0, code, tag] ++ List.replicate 22 0)).flatten

/-- FEED_ON meets a feed OFF, FEED_CLEAR one locked off, and FEED_OFF one in SOFTSTART; a tag of 0 asks for nothing. -/
theorem witness_SweepBurstsAreActedOn_feeds :
    ∀ x ∈ [((1 : Byte), FeedRequest.on, FeedState.off), (3, .clear, .lockedOff), (2, .off, .softstart)],
      let s := (reading (.sweep 1) 512 0).putFeed 0 (feedIn x.2.2)
      (s.feeds.admission.Nodup ∧ ∀ f : FeedIx, f ∈ s.feeds.admission ↔ s.feeds.feed[f].state = .waiting)
        ∧ (feedBytes x.1 7).length = 512 ∧ feedTagAt (feedBytes x.1 7) 0 ≠ 0
        ∧ feedTagAt (feedBytes x.1 7) 0 ≠ s.port.adoptedFeed[0] ∧ feedRequestAt (feedBytes x.1 7) 0 = some x.2.1
        ∧ s.feeds.feed[0].state = x.2.2 ∧ s.feeds.feed[0].faultActive = false
        ∧ feedTagAt (feedBytes x.1 0) 0 = 0 := by decide +kernel

/-- A unit entry's first 64 bytes with a request code and tag: a door on line 0 at address 1. -/
def entryBytes (code tag : Byte) : List Byte :=
  [1, 0, 1, 0, 3, 0, 0, 0, 120, 0, 0x60, 0x09, 0xD0, 0x07, 0, 0, code, tag] ++ List.replicate 46 0

/-- The same burst meets a request in flight. -/
def busy : State :=
  (reading (.sweep 2) 64 0).putUnit 0 { door .running with inFlight := some { request := .contextEdit, tag := 8 } }

/-- The burst of entry 0 meets a record with no request in flight. -/
def asked (x : UnitRecord) : State := (reading (.sweep 2) 64 0).putUnit 0 x

theorem asked_steps (x : UnitRecord) (h : (asked x).rt.lines = (reading (.sweep 2) 64 0).rt.lines) (u : UnitIx) :
    (asked x).rt.StepsOfItsGroup u := by
  intro k g hg
  have other : ∀ k : LineIx, ((reading (.sweep 2) 64 0).rt.lines[k]).groupRecord = none := by decide +kernel
  have hk := other k
  rw [← h, LineRecord.groupRecord, hg] at hk
  exact absurd hk (by simp)

theorem witness_NewRequestsAreTaken :
    ((∃ b, busy.rt.read = some b ∧ b.user = .sweep ((0 : UnitIx).val + 2) ∧ b.live = true ∧ (entryBytes 9 7).length = b.length)
      ∧ unitRequestTagAt (entryBytes 9 7) ≠ 0 ∧ unitRequestTagAt (entryBytes 9 7) ≠ busy.port.adoptedUnit[0]
      ∧ unitRequestOfCode (unitRequestCodeAt (entryBytes 9 7)) = none ∧ unitRequestCodeAt (entryBytes 5 7) = 5
      ∧ busy.rt.units[0].inFlight.isSome = true)
    ∧ (∀ x ∈ [door .running, door .held, door .riding, door .waitFeed, door .failed, door .probing, UnitRecord.reset],
        (∃ b, (asked x).rt.read = some b ∧ b.user = .sweep ((0 : UnitIx).val + 2) ∧ b.live = true
            ∧ (entryBytes 1 7).length = b.length)
          ∧ (asked x).rt.units[0] = x ∧ x.inFlight = none ∧ (asked x).rt.StepsOfItsGroup 0
          ∧ ((asked x).rt.lines[(asked x).rt.units[0].config.line]).serves 0 = false)
    ∧ (∀ c ∈ [(1 : Byte), 2, 3, 5], unitRequestTagAt (entryBytes c 7) = 7 ∧ unitRequestCodeAt (entryBytes c 7) = c)
    ∧ unitConfigAt (entryBytes 1 7) = some doorConfig ∧ (asked (door .running)).rt.unitLatchable 0 = true
    ∧ (tram.putUnit 0 (door .running)).rt.unitLatchable 0 = false
    ∧ (asked UnitRecord.reset).rt.latchable 1 .door = false
    ∧ ((∃ b, (reading (.sweep 33) 64 0).rt.read = some b ∧ b.user = .sweep ((31 : UnitIx).val + 2) ∧ b.live = true
          ∧ (entryBytes 1 7).length = b.length)
        ∧ unitRequestTagAt (entryBytes 1 7) ≠ (reading (.sweep 33) 64 0).port.adoptedUnit[31]
        ∧ (reading (.sweep 33) 64 0).rt.mode = .running) := by
  refine ⟨⟨⟨_, rfl, rfl, rfl, by decide +kernel⟩, by decide +kernel⟩, ?_, by decide +kernel, by decide +kernel, by decide +kernel,
    by decide +kernel, by decide +kernel, ⟨_, rfl, rfl, rfl, by decide +kernel⟩, by decide +kernel⟩
  intro x hx
  refine ⟨⟨_, rfl, rfl, rfl, by decide +kernel⟩, ?_, ?_, asked_steps x rfl 0, ?_⟩ <;>
    (revert x; decide +kernel)

/-- A display in service. -/
def display (st : RunState) : UnitRecord := { door st with config := { doorConfig with kind := .display } }

/-- The door 0's record is this, its line free or with a transaction of the unit outstanding. -/
def edited (x : UnitRecord) (serving : Bool) : State :=
  (if serving then polling else tramDoor .running).putUnit 0 x

/-- The refusals: an unmanaged unit, another base, no present context, another field changed, an isolated field neither
clear nor set (in the stored context too: log 32), and a mode not defined. -/
theorem witness_ContextEditIsTaken_refused :
    ∀ serving : Bool,
      (edited UnitRecord.reset serving).rt.units[0].run = .unmanaged
        ∧ (∀ st ∈ [RunState.running, .held, .riding],
            (edited (door st) serving).rt.units[0].run = st ∧ (edited (door st) serving).rt.units[0].contextSeq = 57
              ∧ (edited (door st) serving).rt.units[0].config.kind = .door
              ∧ (edited (display st) serving).rt.units[0].config.kind = .display
              ∧ (edited (display st) serving).rt.units[0].run = st
              ∧ (edited (display st) serving).rt.units[0].contextSeq = 57)
        ∧ (edited { door .running with contextPresent := false } serving).rt.units[0].contextPresent = false
        ∧ ((Context.zero.set 0 1).set 2 1)[2] ≠ (edited (door .running) serving).rt.units[0].context[2]
        ∧ (edited { door .running with context := Context.zero.set 1 2 } serving).rt.units[0].context = Context.zero.set 1 2
        ∧ (Context.zero.set 0 5)[0] = 5
        ∧ (edited (door .running) serving).rt.mode ≠ .stopped := by decide +kernel

/-- The edits taken: a door's isolated field set, and a display's highest mode. -/
theorem witness_ContextEditIsTaken :
    ∀ serving : Bool, ∀ st ∈ [RunState.running, .held, .riding],
      let edit := (Context.zero.set 0 1).set 1 1
      let s := edited (door st) serving
      s.rt.units[0].run = st ∧ (57 : Word) = s.rt.units[0].contextSeq ∧ s.rt.units[0].config.kind = .door
        ∧ s.rt.units[0].contextPresent = true ∧ (∀ i : Fin 32, i ≠ 1 → edit[i] = s.rt.units[0].context[i]) ∧ edit[1] = 1
        ∧ (s.rt.lines[s.rt.units[0].config.line]).serves 0 = serving
        ∧ (edited (display st) serving).rt.units[0].config.kind = .display ∧ (Context.zero.set 0 4)[0] = 4
        ∧ s.rt.mode ≠ .stopped := by decide +kernel

/-- The start's adopting sweep reads a burst. -/
def adopting (n length : Nat) : State :=
  { State.reset with
    rt := { State.reset.rt with
      read := some { user := .adopting n, live := true, timer := 0, address := 0, length := length } }
    port := { State.reset.port with starting := true, startItems := true, job := some (.adopting n) } }

theorem witness_AdoptingSweepAdopts :
    (∀ n ∈ [0, 1], ∃ b, (adopting n 512).rt.read = some b ∧ b.user = .adopting n ∧ b.live = true
        ∧ (List.replicate 512 (0xFF : Byte)).length = b.length)
      ∧ (∃ b, (adopting 33 64).rt.read = some b ∧ b.user = .adopting ((31 : UnitIx).val + 2) ∧ b.live = true
        ∧ (entryBytes 1 7).length = b.length)
      ∧ (adopting 33 64).port.startItems = true ∧ (adopting 33 64).rt.queue = [] :=
  ⟨fun _ _ => ⟨_, rfl, rfl, rfl, List.length_replicate⟩, ⟨_, rfl, rfl, rfl, by decide +kernel⟩, by decide +kernel⟩

/-- A header whose values all lie in range: its bytes up to the line configurations, and these. -/
def plainHeader : List Byte :=
  [1, 0, 20, 8, 0x90, 1, 200, 0, 205, 0, 8, 40, 200, 0, 3, 63, 0x40, 0x9C, 7] ++ List.replicate 13 0
    ++ (List.replicate 8 [4, 0, 20, 4]).flatten ++ List.replicate 192 0

theorem witness_HeaderIsLoaded :
    (∃ b, (reading .header 256 0).rt.read = some b ∧ b.user = .header ∧ b.live = true
        ∧ (List.replicate 256 (0 : Byte)).length = b.length)
      ∧ (reading .header 256 0).feeds.starting = false ∧ fullBudget.feeds.starting = true
      ∧ (adopting 0 512).port.starting = true
      ∧ (clampHeader (headerFields (List.replicate 256 0))).settings ≠ (headerFields (List.replicate 256 0)).settings
      ∧ (clampHeader (headerFields plainHeader)).settings = (headerFields plainHeader).settings
      ∧ plainHeader.length = 256 ∧ (headerFields plainHeader).budget = 63
      ∧ headerClamped (headerFields plainHeader) = false ∧ headerClamped (headerFields (List.replicate 256 0)) = true
      ∧ ((recovery 0).port.starting = false ∧ (recovery 0).port.recovering = true) :=
  ⟨⟨_, rfl, rfl, rfl, by decide +kernel⟩, by decide +kernel⟩

/-- Block 3 of the door's image, its last, completes the first pass. -/
def lastRequest : FetchRequest := { request with block := 3, length := 8, address := 0x100C0 }

theorem witness_BlockIsFetched :
    (∃ b, (reading (.fetch request true) 64 0).rt.read = some b ∧ b.user = .fetch request true ∧ b.live = true
        ∧ (List.replicate 64 (0 : Byte)).length = b.length)
      ∧ (reading (.fetch request true) 64 0).rt.transferImage 0 = some (latchedImage 0 doorEntry)
      ∧ crcMismatch request (latchedImage 0 doorEntry) (some 0) = false
      ∧ crcMismatch lastRequest (latchedImage 0 doorEntry) (some 0) = true
      ∧ (reading (.fetch request true) 64 0).rt.lines[0].waitBlock = some request.block
      ∧ (reading (.fetch request true) 64 0).rt.lines[0].slot = .alone 0
      ∧ (reading (.fetch request true) 64 0).rt.units[0].config.line = request.line :=
  ⟨⟨_, rfl, rfl, rfl, by decide +kernel⟩, by decide +kernel⟩

/-- An item is the oldest of the queue, and the write path is free. -/
def writing (i : Item) : State := { tram with rt := { tram.rt with queue := [i] } }

theorem witness_WriteBegins :
    (∀ i ∈ [Item.gapList, .headerStatus, .unitResult 31, .feedStatus 15],
      (writing i).rt.queue = [i] ∧ (writing i).rt.mode = .running ∧ (writing i).port.write = none)
      ∧ returning.port.write.isSome = true ∧ tram.rt.queue = [] ∧ State.reset.rt.mode ≠ .running := by decide +kernel

theorem witness_WriteCompletes : ∃ w, returning.port.write = some w ∧ w.live = true ∧ w.item = .unitResult 0 :=
  ⟨_, rfl, rfl, rfl⟩

theorem witness_RunBegins :
    (0x71 : Word).getLsbD 0 = true ∧ (0x71 : Word).getLsbD 2 = false ∧ State.reset.rt.mode = .stopped
      ∧ State.reset.port.starting = false ∧ (tram.inMode .areaFault).rt.mode = .areaFault
      ∧ (tram.inMode .areaFault).port.recovering = false := by decide +kernel

theorem witness_RunStops :
    (0x70 : Word).getLsbD 0 = false ∧ (0x70 : Word).getLsbD 2 = false ∧ pendingGap.rt.mode ≠ .stopped
      ∧ (adopting 0 512).rt.mode = .stopped ∧ (adopting 0 512).port.starting = true := by decide +kernel

theorem witness_StoredFieldsAreWritten :
    (0x71 : Word).getLsbD 1 = false ∧ (0x71 : Word).getLsbD 2 = false
      ∧ (0x71 : Word).getLsbD 0 = tram.controlValue.getLsbD 0 ∧ tram.rt.mode ≠ .areaFault
      ∧ (0x70 : Word).getLsbD 0 = State.reset.controlValue.getLsbD 0 := by decide +kernel

theorem witness_ChangeIsAcknowledged :
    tram.port.ackExplicit = false ∧ (tram.after (.ackMode 0x11)).port.ackExplicit = true := by decide +kernel

theorem witness_RegistersAreWritten :
    (0xE : BitVec 4) ≠ 0xF ∧ 0x17 < (0x18 : BitVec 12).toNat ∧ 0x14 < (0x18 : BitVec 12).toNat ∧ (0x15 : BitVec 12).toNat % 4 ≠ 0
      ∧ (4 : Word).getLsbD 2 = true ∧ (0x71 : Word).getLsbD 2 = false := by decide

/-- The directory copy holds the door's image, and no unit is managed. -/
def enlisting : State := (tramDoor .running).putUnit 0 UnitRecord.reset

theorem witness_EnlistIsTaken :
    enlisting.rt.units[0].run = .unmanaged ∧ unitConfigAt (entryBytes 1 7) = some doorConfig
      ∧ enlisting.rt.lineAdmits doorConfig = true ∧ enlisting.rt.suspect[doorConfig.image] = none
      ∧ directoryValid enlisting.rt.directory[doorConfig.image] = true
      ∧ kindOfCode enlisting.rt.directory[doorConfig.image].kindCode = doorConfig.kind := by decide +kernel

/-- A frame of 7 characters to address 1 on line 0, or of a group's pause, at a moment of its transmission. -/
def sending (reply abandoned pausing : Bool) (timer : Nat) : State :=
  polling.putLine 0 { polling.rt.lines[0] with
    state := .sending, pausing := pausing, abandoned := abandoned, phaseTimer := timer, firstReply := none
    frame := some { address := 1, kind := .statusAsk, seq := 5, payload := [], replyExpected := reply, pause := if reply then 0 else 2 } }

/-- R106: 7 characters of 704 clocks and a bit time of 64 are 4992 clocks. -/
theorem witness_FrameTransmitted :
    ∀ reply abandoned : Bool,
      let s := sending reply abandoned false 897
      s.clock.prescaler + 4095 < 4096 ∧ s.rt.lines[0].state = .sending ∧ s.rt.lines[0].pausing = false
        ∧ s.rt.lines[0].abandoned = abandoned ∧ (s.rt.lines[0]).groupRecord = none
        ∧ (7 + 0) * (176 * s.rt.lines[0].latched.divisor) + 16 * s.rt.lines[0].latched.divisor
            = s.rt.lines[0].phaseTimer + 4095 := by decide +kernel

/-- The group of the door 0 on line 0 in a phase, its BLOCK_ASK still to come. -/
def group (missed : List Nat) (silence : Nat) : Group :=
  { members := [{ unit := 0, missed := missed, silence := silence }], tag := 5, image := latchedImage 0 doorEntry
    phase := .blocks, block := 2, inRound := true, todo := [some 0] }

/-- Line 0 in the pause after the frame to address 15. -/
def tallying : State :=
  let s := (sending false false true 1408).putUnit 0 { door .loading with loadStep := .member }
  s.putLine 0 { s.rt.lines[0] with
    slot := .group (group [] 0)
    txn := some
      { contender := .group none, kind := .imageBlock, address := 15, block := 2, limit := 1, made := 1
        lastFailure := none, attempts := [{ seq := 5, recorded := none }] } }

theorem witness_PauseEnds :
    tallying.clock.prescaler + 0 < 4096 ∧ tallying.rt.lines[0].state = .sending ∧ tallying.rt.lines[0].pausing = true
      ∧ 2 * (176 * tallying.rt.lines[0].latched.divisor) ≤ tallying.rt.lines[0].phaseTimer + 0
      ∧ tallying.rt.lines[0].abandoned = false ∧ tallying.rt.lines[0].slot = .group (group [] 0)
      ∧ (group [] 0).todo = some 0 :: [] ∧ (group [] 0).phase = .blocks
      ∧ (sending false true true 1408).rt.lines[0].abandoned = true
      ∧ ((sending false true true 1408).rt.lines[0]).groupRecord = none := by decide +kernel

/-- Line 0 in a half of QUIET. -/
def quiet (idle abandoned : Bool) : State :=
  polling.putLine 0 { polling.rt.lines[0] with
    state := .quiet, idleHalf := idle, abandoned := abandoned, phaseTimer := 1400, quietOwed := true, firstReply := none }

theorem witness_QuietEnds :
    ∀ idle abandoned : Bool,
      (quiet idle abandoned).clock.prescaler + 8 < 4096 ∧ (quiet idle abandoned).rt.lines[0].state = .quiet
        ∧ 2 * (176 * (quiet idle abandoned).rt.lines[0].latched.divisor) = (quiet idle abandoned).rt.lines[0].phaseTimer + 8
        ∧ (quiet idle abandoned).rt.lines[0].idleHalf = idle ∧ (quiet idle abandoned).rt.lines[0].abandoned = abandoned
        ∧ (quiet idle abandoned).rt.lines[0].txn.isSome = true
        ∧ ((quiet idle abandoned).rt.lines[0]).groupRecord = none := by decide +kernel

/-- Line 0 receives a character, in a state and with an assembly. -/
def hearing (st : LineState) (a : Assembly) : State :=
  polling.putLine 0 { polling.rt.lines[0] with state := st, receiving := some false, assembly := a, rxClock := 639 }

/-- The FIFO of a line whose assembler is held holds some characters. -/
def backlog (st : LineState) (n : Nat) (shift : Option RxChar) : State :=
  let s := hearing st (.discarding 71)
  s.putLine 0 { s.rt.lines[0] with fifo := List.replicate n (rxChar 0b1011000101 false), shift := shift }

theorem witness_CharacterIsReceived_fifo :
    (∀ st ∈ [LineState.awaiting, .receiving], ∀ n ∈ [0, 7, 8],
      let s := backlog st n none
      s.rt.lines[0].state = st ∧ s.rt.lines[0].receiving = some false ∧ s.clock.prescaler + 1 < 4096
        ∧ s.rt.lines[0].shift = none ∧ s.rt.lines[0].assembly.blocked = true ∧ s.rt.lines[0].fifo.length = n)
      ∧ ∀ n ∈ [0, 7], ∀ blocked : Bool, ∀ full ∈ [false, decide (n = 7)],
        let l := ({ (backlog .receiving (n + 1) (if full then some (rxChar 1 false) else none)).rt.lines[0] with
          assembly := if blocked then .discarding 71 else .idle } : LineRecord)
        (∃ c ∈ l.fifo.head?, l.fifo = c :: List.replicate n (rxChar 0b1011000101 false)) ∧ l.fifo.length ≤ 8
          ∧ l.shift.isSome = full ∧ (l.shift.isSome = true → l.fifo.length = 8) ∧ l.assembly.blocked = blocked := by
  refine ⟨by decide +kernel, ?_⟩
  intro n hn blocked full hf
  refine ⟨⟨_, rfl, rfl⟩, ?_⟩
  revert n blocked full; decide +kernel

/-- R107: 160 samples of 4 clocks are 640 clocks. -/
theorem witness_CharacterIsReceived :
    (∀ st ∈ [LineState.idle, .sending, .quiet, .faulted, .awaiting, .receiving],
      (hearing st .idle).rt.lines[0].state = st ∧ (hearing st .idle).rt.lines[0].state ≠ .stopped
        ∧ (hearing st .idle).rt.lines[0].receiving = some false ∧ (hearing st .idle).rt.lines[0].fifo = []
        ∧ (hearing st .idle).rt.lines[0].shift = none ∧ (hearing st .idle).clock.prescaler + 1 < 4096
        ∧ 160 * (hearing st .idle).rt.lines[0].latched.divisor = (hearing st .idle).rt.lines[0].rxClock + 1)
      ∧ sampleCount (sampled 0b1011000101) = 160 ∧ readBits (sampleLevels (sampled 0b1011000101)) = 0b1011000101
      ∧ (∀ i : Fin 10, (sampleLevels (sampled 0b1011000101))[16 * i.val + 15]? = (characterBits 0xC5)[i.val + 1]?)
      ∧ Assembly.idle.blocked = false ∧ (Assembly.discarding 71).blocked = true ∧ (Assembly.discarding 70).blocked = false
      ∧ rxFlagged (rxChar 0b1011000101 false) = false ∧ rxFlagged (rxChar 0b0011000101 false) = true
      ∧ receivedLength [0xC5, 0x18, 5, 0, 64] = 64 ∧ receivedLength [0xC5, 0x18, 5, 0, 65] = 65
      ∧ cutFrame.state = .sending ∧ cutFrame.pausing = false ∧ cutFrame.frame.isSome = true
      ∧ 0 < cutFrame.latched.divisor ∧ cutFrame.phaseTimer / (16 * cutFrame.latched.divisor) = 11 * 3 + 1 := by
  decide +kernel

/-- The door 0's HELLO_ASK is outstanding and a character is being received. -/
def breaking : State :=
  bootingBusy.putLine 0 { bootingBusy.rt.lines[0] with receiving := some false, faults := 65535 }

theorem witness_BreakIsReceived :
    breaking.clock.prescaler + 640 < 4096
      ∧ 160 * breaking.rt.lines[0].latched.divisor = breaking.rt.lines[0].rxClock + 640 ∧ breaking.rt.lines[0].state = .awaiting
      ∧ breaking.rt.lines[0].receiving = some false ∧ breaking.rt.units[0].bootHeld = false
      ∧ breaking.rt.units[0].heldWork = none ∧ breaking.rt.units[0].run = .attending
      ∧ (∃ x, breaking.rt.lines[0].txn = some x ∧ x.contender = .single 0 .hello)
      ∧ (hearing .quiet .idle).rt.lines[0].state = .quiet ∧ (hearing .faulted .idle).rt.lines[0].state = .faulted
      ∧ ((hearing .idle .idle).putLine 0 LineRecord.reset).rt.lines[0].txn = none :=
  ⟨by decide +kernel, by decide +kernel, by decide +kernel, by decide +kernel, by decide +kernel, by decide +kernel,
    by decide +kernel, ⟨_, rfl, rfl⟩, by decide +kernel⟩

/-- A reply's characters: lead, address and kind, sequence byte, length, payload and CRC-16. -/
def replyBytes (address kind : BitVec 4) (seq : Byte) (payload : List Byte) : List Byte :=
  let fields := [addressKind address kind, seq] ++ halfBytesHigh (halfOf payload.length) ++ payload
  [0xC5] ++ fields ++ halfBytesHigh (crc16 fields)

/-- Line 0 holds a clean frame. -/
def holding (bytes : List Byte) (abandoned : Bool) : State :=
  polling.putLine 0 { polling.rt.lines[0] with state := .receiving, assembly := .held bytes, abandoned := abandoned }

theorem witness_StrayFrameIsDiscarded :
    ∀ abandoned : Bool,
      let s := holding (replyBytes 1 9 4 []) abandoned
      s.clock.prescaler < 4096 ∧ s.rt.lines[0].state = .receiving
        ∧ s.rt.lines[0].assembly = .held (replyBytes 1 9 4 []) ∧ s.rt.lines[0].fifo = [] ∧ s.rt.lines[0].shift = none
        ∧ s.rt.lines[0].abandoned = abandoned ∧ (s.rt.lines[0].frame.map TxFrame.seq) ≠ some (receivedSeq (replyBytes 1 9 4 []))
        ∧ s.rt.lines[0].receiving = none ∧ (s.rt.lines[0]).groupRecord = none := by decide +kernel

/-- The ACK of the door 0's put in RESTORING is held, its context open. -/
def restoring : State :=
  let s := (holding (replyBytes 1 10 5 []) false).putUnit 0
    { door .restoring with editPending := true, inFlight := some { request := .enlist, tag := 2 } }
  s.putLine 0 { s.rt.lines[0] with
    frame := some { address := 1, kind := .contextPut, seq := 5, payload := [], replyExpected := true, pause := 0 }
    txn := some
      { contender := .single 0 (.put .restore), kind := .contextPut, address := 1, block := 0, limit := 4, made := 1
        lastFailure := none, attempts := [{ seq := 5, recorded := some (57, Context.zero.set 0 2) }] } }

/-- The transaction of work of the door 0: its block, the attempts made of 4, and what the latest recorded. -/
def exchange (w : Work) (block made : Nat) (recorded : Option (Word × Context)) : Transaction :=
  { contender := .single 0 w, kind := workKind w, address := 1, block := block, limit := 4, made := made
    lastFailure := none, attempts := [{ seq := 5, recorded := recorded }] }

/-- A reply to such a transaction is held on line 0. -/
def answering (x : UnitRecord) (y : Transaction) (kind : BitVec 4) (payload : List Byte) : State :=
  let s := (holding (replyBytes 1 kind 5 payload) false).putUnit 0 x
  s.putLine 0 { s.rt.lines[0] with
    frame := some { address := 1, kind := y.kind, seq := 5, payload := [], replyExpected := true, pause := 0 }
    txn := some y }

/-- What `State.Replies` asks of such a state. -/
theorem answering_replies (x : UnitRecord) (w : Work) (block made : Nat) (recorded : Option (Word × Context))
    (kind : BitVec 4) (payload : List Byte) (rep : Reply)
    (h : receivedAddress (replyBytes 1 kind 5 payload) = 1 ∧ receivedSeq (replyBytes 1 kind 5 payload) = 5
      ∧ receivedKind (replyBytes 1 kind 5 payload) = kind ∧ receivedPayload (replyBytes 1 kind 5 payload) = payload)
    (hr : replyOf kind payload = some rep) (ha : replyAccepted (workKind w) block rep = true) :
    (answering x (exchange w block made recorded) kind payload).Replies 0 0 w rep :=
  ⟨_, _, _, show 0 < 4096 by decide, rfl, rfl, rfl, rfl, h.1, h.2.1,
    (congr (congrArg replyOf h.2.2.1) h.2.2.2).trans hr, rfl, rfl, rfl, ha⟩

/-- A reply to the first attempt of the door 0's own work is held on line 0. -/
def replying (x : UnitRecord) (w : Work) (kind : BitVec 4) (payload : List Byte) : State :=
  answering x (exchange w 0 1 none) kind payload

theorem replying_replies (x : UnitRecord) (w : Work) (kind : BitVec 4) (payload : List Byte) (rep : Reply)
    (h : receivedAddress (replyBytes 1 kind 5 payload) = 1 ∧ receivedSeq (replyBytes 1 kind 5 payload) = 5
      ∧ receivedKind (replyBytes 1 kind 5 payload) = kind ∧ receivedPayload (replyBytes 1 kind 5 payload) = payload)
    (hr : replyOf kind payload = some rep) (ha : replyAccepted (workKind w) 0 rep = true) :
    (replying x w kind payload).Replies 0 0 w rep :=
  answering_replies x w 0 1 none kind payload rep h hr ha

/-- The record that such a state holds. -/
theorem answering_unit (x : UnitRecord) (y : Transaction) (kind : BitVec 4) (payload : List Byte) :
    (answering x y kind payload).rt.units[0] = x := by
  simp [answering, State.putUnit, State.putLine]

/-- The ACK of a put that carried the present context, or an earlier one, with a request in flight or none and a poll
held: the unit is in RUNNING or HELD. -/
theorem witness_ContextEditIsTaken_ack :
    ∀ p ∈ [PutPurpose.edit, .pendingEdit, .release], ∀ q ∈ [(57 : Word), 56],
      ∀ x ∈ [{ door .running with heldWork := some .poll, editPending := true },
          { door .held with inFlight := some { request := .contextEdit, tag := 8 }, editPending := true },
          { door .held with inFlight := some { request := .releaseDoor, tag := 8 } }],
        let s := answering x (exchange (.put p) 0 1 (some (q, x.context))) 10 []
        s.Replies 0 0 (.put p) .ack ∧ (x.run = .running ∨ x.run = .held) ∧ s.rt.units[0] = x
          ∧ (∃ y, s.rt.lines[0].txn = some y ∧ y.attempts.getLast? = some { seq := 5, recorded := some (q, x.context) })
          ∧ (s.rt.lines[0]).waits 0 = false := by
  intro p hp q hq x hx
  refine ⟨answering_replies x (.put p) 0 1 (some (q, x.context)) 10 [] .ack (by decide +kernel) (by decide +kernel)
    rfl, ?_, answering_unit _ _ _ _, ⟨_, rfl, rfl⟩, ?_⟩
  · revert x; decide +kernel
  · rfl

/-- A put, a poll and a STATUS_ASK at their limits, and the work of a load alone. -/
def exhausted (x : UnitRecord) (w : Work) : State :=
  let s := polling.putUnit 0 x
  s.putLine 0 { s.rt.lines[0] with slot := .alone 0, txn := some (exchange w 0 4 none) }

theorem witness_ReplyTimesOut_exhausted :
    ∀ x ∈ [(door .held, Work.put .edit), (door .running, .put .pendingEdit), (door .held, .put .release),
        (door .restoring, .put .restore), (door .restoring, .status),
        ({ door .checking with runClass := .rode, misses := 65535 }, .status), (door .loading, .imageBegin),
        (door .loading, .block), (door .verifying, .imageEnd), ({ door .held with pollMisses := 2 }, .poll)],
      let s := exhausted x.1 x.2
      s.clock.prescaler + 1 < 4096 ∧ s.rt.lines[0].state = .awaiting ∧ s.rt.lines[0].firstReply = some 14079
        ∧ s.rt.lines[0].latched.firstReply * (176 * s.rt.lines[0].latched.divisor) = 14079 + 1
        ∧ s.rt.lines[0].txn.map Transaction.contender = some (.single 0 x.2)
        ∧ (s.rt.lines[0].txn.map fun y => decide (y.limit ≤ y.made)) = some true
        ∧ s.rt.units[0].run = x.1.run ∧ s.rt.settings.missLimit ≤ 2 + 1 ∧ s.rt.units[0].pollMisses = x.1.pollMisses
        ∧ s.rt.units[0].config.line = 0 ∧ s.rt.lines[0].slot = .alone 0 := by decide +kernel

/-- The reply to a step of the door 0's load alone, with a number of blocks confirmed: the next block is held or not, and
entry 1 of the line is at SLOT_WAIT. -/
def loadingAlone (x : UnitRecord) (y : Transaction) (kind : BitVec 4) (payload : List Byte) (held : Option Block) : State :=
  let s := (answering x y kind payload).putUnit 1
    { door .loading with config := { doorConfig with address := 2 }, loadStep := .slotWait }
  s.putLine 0 { s.rt.lines[0] with slot := .alone 0, buffer0 := held }

theorem loadingAlone_replies (x : UnitRecord) (w : Work) (block made : Nat) (recorded : Option (Word × Context))
    (kind : BitVec 4) (payload : List Byte) (held : Option Block) (rep : Reply)
    (h : (answering x (exchange w block made recorded) kind payload).Replies 0 0 w rep) :
    (loadingAlone x (exchange w block made recorded) kind payload held).Replies 0 0 w rep := h

/-- The ACK of the IMAGE_BEGIN. -/
theorem witness_LoadAloneBegins_ack :
    ∀ held ∈ [none, some ({ index := 0, data := [7] } : Block)],
      let s := loadingAlone { door .loading with loadStep := .alone, loads := 65535 } (exchange .imageBegin 0 1 none) 10 [] held
      s.Replies 0 0 .imageBegin .ack ∧ s.rt.units[0].run = .loading ∧ s.rt.units[0].config.line = 0
        ∧ s.rt.lines[0].slot = .alone 0 ∧ ((s.rt.lines[0]).heldBlock 0).isSome = held.isSome ∧ s.rt.mode ≠ .stopped := by
  intro held hh
  refine ⟨loadingAlone_replies _ _ _ _ _ _ _ _ _ (answering_replies _ _ _ _ _ _ _ _ (by decide +kernel) (by decide +kernel)
    rfl), ?_⟩
  revert held; decide +kernel

/-- BLOCK_OK for the first block, a middle one and the last of the image's 4, and BLOCK_BAD below the limit and at it. -/
theorem witness_LoadAloneBegins_block :
    ∀ b ∈ [0, 2, 3], ∀ good : Bool, ∀ made ∈ [1, 4], ∀ held ∈ [none, some ({ index := b + 1, data := [7] } : Block)],
      let s := loadingAlone { door .loading with loadStep := .alone, confirmed := b } (exchange .block b made none)
        (if good then 11 else 12) [0, BitVec.ofNat 8 b] held
      s.Replies 0 0 .block (if good then .blockOk b else .blockBad b) ∧ s.rt.units[0].run = .loading
        ∧ s.rt.units[0].confirmed = b ∧ s.rt.units[0].image.blockCount = 4 ∧ s.rt.units[0].config.line = 0
        ∧ s.rt.lines[0].slot = .alone 0 ∧ ((s.rt.lines[0]).heldBlock (b + 1)).isSome = held.isSome
        ∧ (s.rt.lines[0]).waits 0 = false ∧ s.rt.lines[0].txn = some (exchange .block b made none)
        ∧ s.rt.units[1].loadStep = .slotWait ∧ s.rt.units[1].config.line = 0 := by
  intro b hb good made hm held hh
  have hr : ∀ b ∈ [0, 2, 3], ∀ good : Bool,
      (receivedAddress (replyBytes 1 (if good then 11 else 12) 5 [0, BitVec.ofNat 8 b]) = 1
        ∧ receivedSeq (replyBytes 1 (if good then 11 else 12) 5 [0, BitVec.ofNat 8 b]) = 5
        ∧ receivedKind (replyBytes 1 (if good then 11 else 12) 5 [0, BitVec.ofNat 8 b]) = (if good then 11 else 12)
        ∧ receivedPayload (replyBytes 1 (if good then 11 else 12) 5 [0, BitVec.ofNat 8 b]) = [0, BitVec.ofNat 8 b])
      ∧ replyOf (if good then 11 else 12) [0, BitVec.ofNat 8 b] = some (if good then .blockOk b else .blockBad b)
      ∧ replyAccepted (workKind .block) b (if good then .blockOk b else .blockBad b) = true := by decide +kernel
  obtain ⟨h1, h2, h3⟩ := hr b hb good
  refine ⟨loadingAlone_replies _ _ _ _ _ _ _ _ _ (answering_replies _ _ _ _ _ _ _ _ h1 h2 h3), ?_⟩
  clear hr h1 h2 h3
  revert b good made held; decide +kernel

/-- A HELLO: boot count 9, the image intact with the door's edition 12 and its CRC-32 or
another, and a context retained or lost. -/
def helloPayload (same retained : Bool) : List Byte :=
  [0, 9, 1, 0, 12] ++ wordBytesHigh (if same then 0x11223344 else 5) ++ if retained then [1] ++ (Context.zero.set 0 2).toList else [2]

def helloFields (same retained : Bool) : Hello :=
  { bootCount := 9, intact := true, edition := 12, crc := if same then 0x11223344 else 5
    retained := if retained then some (Context.zero.set 0 2) else none }

theorem witness_RestoringEnds_hello (x : UnitRecord) :
    ∀ same retained : Bool, (replying x .hello 8 (helloPayload same retained)).Replies 0 0 .hello
      (.hello (helloFields same retained)) := by
  intro same retained
  exact replying_replies x .hello 8 (helloPayload same retained) (.hello (helloFields same retained))
    (by revert same retained; decide +kernel) (by revert same retained; decide +kernel) rfl

theorem witness_RestoringEnds_verdict (x : UnitRecord) :
    ∀ good : Bool,
      (replying x .imageEnd 13 [if good then 1 else 2]).Replies 0 0 .imageEnd (.verdict good) := by
  intro good
  exact replying_replies x .imageEnd 13 [if good then 1 else 2] (.verdict good) (by revert good; decide +kernel)
    (by revert good; decide +kernel) rfl

theorem witness_RestoringEnds :
    (restoring.clock.prescaler < 4096 ∧ restoring.rt.lines[0].state = .receiving
      ∧ restoring.rt.lines[0].assembly = .held (replyBytes 1 10 5 []) ∧ restoring.rt.lines[0].abandoned = false
      ∧ receivedAddress (replyBytes 1 10 5 []) = 1 ∧ receivedSeq (replyBytes 1 10 5 []) = 5
      ∧ receivedKind (replyBytes 1 10 5 []) = 10 ∧ receivedPayload (replyBytes 1 10 5 []) = []
      ∧ restoring.rt.units[0].run = .restoring
      ∧ restoring.rt.lines[0].txn.map Transaction.contender = some (.single 0 (.put .restore))
      ∧ restoring.rt.lines[0].txn.map Transaction.kind = some .contextPut
      ∧ restoring.rt.lines[0].frame.map TxFrame.address = some 1 ∧ restoring.rt.lines[0].frame.map TxFrame.seq = some 5
      ∧ restoring.rt.units[0].inFlight = some { request := .enlist, tag := 2 })
    ∧ ∀ x ∈ [door .probing, { door .probing with forceCold := true }, { door .attending with runClass := .cold },
          { door .attending with runClass := .warm, origin := .classified }, { door .verifying with verdicts := 1 },
          { door .verifying with probePending := true, contextPresent := false }],
        (x.run = .probing ∨ x.run = .attending ∨ x.run = .verifying)
          ∧ x.image.edition = 12 ∧ x.image.crc = 0x11223344 := by decide +kernel

/-- The STATUS that answers the poll. -/
def statusBytes : List Byte := replyBytes 1 9 5 ([0, 7] ++ (Context.zero.set 0 3).toList)

/-- A STATUS of boot count 7 or 8 that answers a poll or a STATUS_ASK. -/
theorem witness_PollReplyIsJudged_status (x : UnitRecord) :
    ∀ w ∈ [Work.poll, .status], ∀ n ∈ [(7 : Byte), 8],
      (replying x w 9 ([0, n] ++ Context.zero.toList)).Replies 0 0 w (.status ((0 : Byte) ++ n) Context.zero) := by
  intro w hw n hn
  exact replying_replies x w 9 ([0, n] ++ Context.zero.toList) (.status ((0 : Byte) ++ n) Context.zero)
    (by revert w n; decide +kernel) (by revert n; decide +kernel) (by revert w n; decide +kernel)

theorem witness_PollReplyIsJudged :
    (let s := holding statusBytes false
    s.clock.prescaler < 4096 ∧ s.rt.lines[0].state = .receiving ∧ s.rt.lines[0].assembly = .held statusBytes
      ∧ s.rt.lines[0].abandoned = false ∧ receivedAddress statusBytes = 1 ∧ receivedSeq statusBytes = 5
      ∧ replyOf (receivedKind statusBytes) (receivedPayload statusBytes) = some (.status 7 (Context.zero.set 0 3))
      ∧ s.rt.lines[0].txn.map Transaction.contender = some (.single 0 .poll)
      ∧ s.rt.units[0].run = .running ∧ s.rt.units[0].bootCount = some 7 ∧ s.rt.units[0].editPending = false
      ∧ s.rt.units[0].contextSeq = 57)
    ∧ ∀ x ∈ [{ door .held with inFlight := some { request := .releaseDoor, tag := 6 } },
          { door .running with image := { latchedImage 0 doorEntry with crc := 1 } },
          { door .running with config := { doorConfig with image := 1 } }, door .checking,
          { door .checking with editPending := true }, { door .checking with bootCount := none }, door .restoring],
        let s := (tramDoor .running).putUnit 0 x
        s.rt.unitLatchable 0 = decide (x.config.image = 0)
          ∧ s.rt.sameImage 0 = decide (x.config.image = 0 ∧ x.image.crc ≠ 1)
          ∧ (x.bootCount = some 7 ∨ x.bootCount = none ∧ x.run = .checking) := by decide +kernel

theorem witness_ReplyTimesOut :
    polling.clock.prescaler + 1 < 4096 ∧ polling.rt.lines[0].state = .awaiting
      ∧ polling.rt.lines[0].firstReply = some 14079
      ∧ polling.rt.lines[0].latched.firstReply * (176 * polling.rt.lines[0].latched.divisor) = 14079 + 1
      ∧ polling.rt.lines[0].txn.map Transaction.contender = some (.single 0 .poll) ∧ polling.rt.units[0].run = .running
      ∧ polling.rt.units[0].heldWork = none ∧ polling.rt.units[0].pollMisses + 1 < polling.rt.settings.missLimit
      ∧ (polling.rt.lines[0].txn.map fun x => decide (x.limit ≤ x.made)) = some true
      ∧ bootingBusy.rt.lines[0].txn.map Transaction.contender = some (.single 0 .hello)
      ∧ bootingBusy.rt.units[0].run = .attending ∧ bootingBusy.rt.units[0].bootHeld = false
      ∧ (restoring.rt.lines[0].txn.map fun x => decide (x.made < x.limit)) = some true := by decide +kernel

/-- Line 0 collects a frame, or discards one. -/
def receivingFrame (a : Assembly) (abandoned : Bool) : State :=
  polling.putLine 0 { polling.rt.lines[0] with
    state := .receiving, assembly := a, abandoned := abandoned, interChar := some 2815, silence := some 2815 }

/-- R102, R114: the gap limit of 4 character times is 2816 clocks. -/
theorem witness_DamagedFrameIsDiscarded :
    (∀ a ∈ [Assembly.collecting [0xC5], .discarding 70, .discarding 71], ∀ abandoned : Bool,
      let s := receivingFrame a abandoned
      s.clock.prescaler + 1 < 4096 ∧ s.rt.lines[0].state = .receiving ∧ s.rt.lines[0].assembly = a
        ∧ s.rt.lines[0].interChar = some 2815 ∧ s.rt.lines[0].silence = some 2815
        ∧ s.rt.lines[0].latched.gapLimit * (176 * s.rt.lines[0].latched.divisor) = 2815 + 1
        ∧ s.rt.lines[0].abandoned = abandoned ∧ (s.rt.lines[0]).groupRecord = none ∧ s.rt.lines[0].fifo = []
        ∧ s.rt.lines[0].shift = none) := by decide +kernel

/-- Line 0 in FAULTED, high for some clocks, 3 clocks after its latest sample. -/
def faulted (n : Nat) : State :=
  tram.putLine 0 { LineRecord.reset with state := .faulted, high := some n, hunt := .high, rxClock := 3 }

/-- R111: 2 character times of 704 clocks are 1408; one sample of 4 clocks more, high, reaches them, and a low one does
not. -/
theorem witness_FaultEnds :
    (faulted 1404).clock.prescaler + 1 < 4096 ∧ (faulted 1404).rt.lines[0].state = .faulted
      ∧ (faulted 1404).rt.lines[0].receiving = none ∧ (faulted 1404).rt.lines[0].high = some 1404
      ∧ (faulted 1404).rt.lines[0].midRound = false
      ∧ sampleCount [{ level := true, count := 1 }]
          = ((faulted 1404).rt.lines[0].rxClock + 1) / (faulted 1404).rt.lines[0].latched.divisor
      ∧ (faulted 1404).rt.lines[0].hunt.hear (sampleLevels [{ level := true, count := 1 }]) = some .high
      ∧ highAfter 4 (sampleLevels [{ level := true, count := 1 }]) 1404 = 2 * (176 * 4)
      ∧ highAfter 4 (sampleLevels [{ level := false, count := 1 }]) 1404 = 0 ∧ false ∉ [true, true] := by decide +kernel

/-- Work of the door 0 waits on line 0. -/
def waiting (st : LineState) (w : Work) (x : UnitRecord) : State :=
  (tramDoor .running).putUnit 0 x |>.putLine 0 { LineRecord.reset with state := st, waitList := [.single 0 w] }

/-- The group of line 0 waits for its next round in a phase, with two members. -/
def grouped (p : Phase) (quietOwed : Bool) : State :=
  let s := (tramDoor .loading).putUnit 1 { door .loading with config := { doorConfig with address := 2 } }
  s.putLine 0 { LineRecord.reset with
    quietOwed := quietOwed, waitList := [.group], buffer0 := some { index := 2, data := [7] }
    slot := .group { (group [2] 0) with
      phase := p, inRound := false, todo := []
      members := [{ unit := 0, missed := [], silence := 0 }, { unit := 1, missed := [2], silence := 0 }] } }

theorem witness_ArbiterChooses_group :
    ∀ p ∈ [Phase.blocks, .repair, .ending], ∀ quietOwed : Bool,
      let s := grouped p quietOwed
      s.clock.prescaler < 4096 ∧ s.rt.lines[0].state = .idle ∧ s.rt.lines[0].txn = none
        ∧ s.rt.lines[0].quietOwed = quietOwed ∧ s.rt.choose 0 s.rt.lines[0].waitList = some .group
        ∧ (s.rt.lines[0].heldBlock 2) = some [7]
        ∧ (s.rt.lines[0].groupRecord.map Group.phase) = some p ∧ (s.rt.lines[0].groupRecord.map Group.inRound) = some false
        ∧ (s.rt.lines[0].groupRecord.map fun g => g.members.map Member.unit) = some [0, 1]
        ∧ (s.rt.lines[0].groupRecord.bind Group.nextRepair) = some (1, 2)
        ∧ (s.rt.lines[0].groupRecord.map Group.block) = some 2 := by
  decide +kernel

theorem witness_ArbiterChooses :
    (∀ x ∈ [(LineState.idle, Work.imageEnd), (.idle, .poll), (.faulted, .hello)],
      let s := waiting x.1 x.2 (door .attending)
      s.clock.prescaler < 4096 ∧ s.rt.lines[0].state = x.1 ∧ s.rt.lines[0].txn = none ∧ (s.rt.lines[0]).midRound = false
        ∧ s.rt.choose 0 s.rt.lines[0].waitList = some (.single 0 x.2) ∧ x.2 ≠ .beginLoad
        ∧ s.rt.units[0].bootHeld = false ∧ s.rt.units[0].heldWork = none ∧ s.rt.units[0].run = .attending) := by
  decide +kernel

/-- Begin work of three units of one group tag waits on line 0; entry 1 is a display, for which the image is not. -/
def forming (tag : Byte) : State :=
  let loading (address : BitVec 4) (kind : UnitKind) : UnitRecord :=
    { door .loading with
      config := { doorConfig with groupTag := tag, address := address, kind := kind }, loadStep := .beginPosted }
  (((waiting .idle .beginLoad (loading 1 .door)).putUnit 1 (loading 2 .display)).putUnit 2 (loading 3 .door)).putLine 0
    { LineRecord.reset with waitList := [.single 0 .beginLoad, .single 1 .beginLoad, .single 2 .beginLoad] }

theorem witness_LoadAloneBegins_group :
    let s := forming 5
    s.clock.prescaler < 4096 ∧ s.rt.lines[0].state = .idle ∧ s.rt.lines[0].txn = none ∧ s.rt.lines[0].slot = .free
      ∧ s.rt.choose 0 s.rt.lines[0].waitList = some (.single 0 .beginLoad) ∧ s.rt.units[0].config.line = 0
      ∧ s.rt.unitLatchable 0 = true ∧ s.rt.units[0].config.groupTag ≠ 0 ∧ s.rt.units[0].aloneMark = false
      ∧ s.rt.unitLatchable 1 = false ∧ s.rt.unitLatchable 2 = true
      ∧ (∀ v : UnitIx, decide (v = 1 ∨ v = 2) = true ↔ v ≠ 0 ∧ Entry.single v .beginLoad ∈ s.rt.lines[0].waitList
          ∧ s.rt.units[v].aloneMark = false ∧ s.rt.units[v].config.groupTag = s.rt.units[0].config.groupTag
          ∧ s.rt.units[v].config.image = s.rt.units[0].config.image)
      ∧ (List.finRange 32).filter (fun v : UnitIx => decide (v = 0) || decide (v = 1 ∨ v = 2) && s.rt.unitLatchable v)
          = 0 :: [2] := by decide +kernel

theorem witness_LoadAloneBegins :
    let s := waiting .idle .beginLoad { door .loading with loadStep := .beginPosted }
    s.clock.prescaler < 4096 ∧ s.rt.lines[0].state = .idle ∧ s.rt.lines[0].txn = none ∧ s.rt.lines[0].slot = .free
      ∧ s.rt.choose 0 s.rt.lines[0].waitList = some (.single 0 .beginLoad) ∧ s.rt.units[0].config.line = 0
      ∧ s.rt.units[0].config.groupTag = 0 ∧ s.rt.suspect[s.rt.units[0].config.image] = none
      ∧ directoryValid s.rt.directory[s.rt.units[0].config.image] = true
      ∧ kindOfCode s.rt.directory[s.rt.units[0].config.image].kindCode = s.rt.units[0].config.kind := by decide +kernel

theorem witness_TallyIsTaken :
    (∀ x ∈ [([], 0), (List.range 15, 1), (List.range 16, 2)], ∀ p ∈ [Phase.begin, .blocks, .repair, .ending],
      let g := { group x.1 x.2 with phase := p }
      let r := (tallying.putLine 0 { tallying.rt.lines[0] with slot := .group g }).rt
      (r.lines[0]).slot = .group g ∧ r.units[0].config.line = 0
        ∧ g.members.find? (fun m => decide (m.unit = 0)) = some { unit := 0, missed := x.1, silence := x.2 })
    ∧ (group [] 0).nextRepair = none ∧ (group [1] 0).nextRepair = some (0, 1)
    ∧ (group [] 0).block + 1 < (group [] 0).image.blockCount
    ∧ ({ group [] 0 with block := 3 } : Group).image.blockCount ≤ ({ group [] 0 with block := 3 } : Group).block + 1 := by
  decide +kernel

/-- Section 10.2, the end of the group: entry 27 is its last member, entry 26 is at SLOT_WAIT, and no transaction is
outstanding. -/
def lastMember (v : Nat) : Runtime :=
  let member (st : RunState) (step : LoadStep) : UnitRecord := { door st with loadStep := step, verdicts := v }
  (((tramDoor .running).putUnit 27 (member .verifying .member)).putUnit 26 (member .loading .slotWait)).rt.updLine 0
    fun l => { l with slot := .group { (group [] 0) with phase := .ending, members := [{ unit := 27, missed := [], silence := 0 }] } }

/-- Section 10.2: entry 26's begin work joins behind entry 27's put. A first VERDICT BAD takes entry 27 to SLOT_WAIT, and
both post in ascending index (R135). -/
theorem test_last_member :
    let g := { (group [] 0) with phase := .ending, members := [{ unit := 27, missed := [], silence := 0 }] }
    ((lastMember 0).memberEnd 0 27 g (.reply (.verdict true))).lines[0].waitList
        = [.single 27 (.put .restore), .single 26 .beginLoad]
      ∧ ((lastMember 0).memberEnd 0 27 g (.reply (.verdict false))).lines[0].waitList
        = [.single 26 .beginLoad, .single 27 .beginLoad]
      ∧ ((lastMember 1).memberEnd 0 27 g (.reply (.verdict false))).lines[0].waitList = [.single 26 .beginLoad] := by
  decide +kernel

theorem witness_TallyIsTaken_last :
    ∀ p ∈ [Phase.begin, .blocks, .ending], ∀ v ∈ [0, 1],
      let g := { (group [] 0) with phase := p, members := [{ unit := 27, missed := List.range 16, silence := 0 }] }
      let r := (lastMember v).updLine 0 fun l => { l with slot := .group g }
      (r.lines[0]).slot = .group g ∧ r.units[27].config.line = 0 ∧ (g.without 27).members = [] ∧ (r.lines[0]).txn = none
        ∧ (r.lines[0]).waits 27 = false ∧ r.units[27].verdicts = v ∧ r.mode ≠ .areaFault
        ∧ g.members.find? (fun m => decide (m.unit = 27)) = some { unit := 27, missed := List.range 16, silence := 0 }
        ∧ r.units[26].loadStep = .slotWait ∧ r.units[26].config.line = 0
        ∧ ∀ v : UnitIx, v ≠ 27 ∧ r.units[v].loadStep = .slotWait ∧ r.units[v].config.line = 0 →
            (r.lines[0]).waits v = false := by
  decide +kernel

theorem witness_StartBitIsConfirmed :
    (∀ st ∈ [LineState.idle, .sending, .awaiting, .receiving, .quiet, .faulted],
      let s := polling.putLine 0 { polling.rt.lines[0] with state := st, shift := some (rxChar 1 false), rxClock := 35 }
      s.clock.prescaler + 1 < 4096 ∧ s.rt.lines[0].state ≠ .stopped ∧ s.rt.lines[0].receiving = none
        ∧ s.rt.lines[0].shift.isSome = true
        ∧ sampleCount falling = (s.rt.lines[0].rxClock + 1) / s.rt.lines[0].latched.divisor
        ∧ (s.rt.lines[0].hunt).confirms (sampleLevels falling) = true)
      ∧ [true, false, true, false, true, false].length = 6 := by decide +kernel

end Machine

end Sys2Proof
end

/-! PROOFS. The Supply Monitor and the gap's classification: what each operation of the part does to the monitor, and the
statements of chapter 1 with those on the resets, the tick and the item writes. -/

namespace Sys2Proof

namespace Machine

/-- What every step of a fold leaves alone, the fold leaves alone. -/
theorem foldl_field {σ α β : Type} (p : σ → β) (g : σ → α → σ) (hg : ∀ s a, p (g s a) = p s) (l : List α) :
    ∀ s : σ, p (l.foldl g s) = p s := by
  induction l with
  | nil => exact fun _ => rfl
  | cons a l ih => exact fun s => (ih _).trans (hg s a)

/-! ### Operations of the part that leave the Supply Monitor alone -/

@[simp] theorem considerAdmission_monitor (s : State) : s.considerAdmission.monitor = s.monitor := rfl

@[simp] theorem afterSoftStart_monitor (s : State) : s.afterSoftStart.monitor = s.monitor := rfl

@[simp] theorem handGap_monitor (s : State) : s.handGap.monitor = s.monitor := by
  simp [State.handGap]

@[simp] theorem handSupplyUp_monitor (c : Capture) (s before : State) :
    (s.handSupplyUp c before).monitor = s.monitor := by
  simp [State.handSupplyUp]

@[simp] theorem trip_monitor (f : FeedIx) (s : State) : (s.trip f).monitor = s.monitor := by
  unfold State.trip
  split <;> simp

@[simp] theorem feedReachesOn_monitor (f : FeedIx) (s : State) : (s.feedReachesOn f).monitor = s.monitor := rfl

@[simp] theorem cooldownEnds_monitor (f : FeedIx) (s : State) : (s.cooldownEnds f).monitor = s.monitor := by
  unfold State.cooldownEnds
  split <;> simp

@[simp] theorem engineNext_monitor (s : State) : s.engineNext.monitor = s.monitor := by
  unfold State.engineNext
  (repeat' split) <;> rfl

@[simp] theorem wantSweep_monitor (s : State) : s.wantSweep.monitor = s.monitor := by
  unfold State.wantSweep
  simp

@[simp] theorem enterAreaFault_monitor (s : State) : s.enterAreaFault.monitor = s.monitor := by
  simp [State.enterAreaFault]

@[simp] theorem areaFault_monitor (s : State) : s.areaFault.monitor = s.monitor := by
  unfold State.areaFault
  (repeat' split) <;> simp

@[simp] theorem failRead_monitor (s : State) : s.failRead.monitor = s.monitor := by
  unfold State.failRead
  split
  · rfl
  · dsimp only
    (repeat' split) <;> simp

@[simp] theorem failWrite_monitor (s : State) : s.failWrite.monitor = s.monitor := by
  unfold State.failWrite
  split
  · rfl
  · dsimp only
    split <;> simp

@[simp] theorem enterRunning_monitor (s : State) : s.enterRunning.monitor = s.monitor := by
  unfold State.enterRunning
  simp

@[simp] theorem run_monitor (s : State) : s.run.monitor = s.monitor := by
  unfold State.run
  (repeat' split) <;> rfl

@[simp] theorem halt_monitor (s : State) : s.halt.monitor = s.monitor := by
  unfold State.halt
  split <;> simp [State.stop]

@[simp] theorem wantHeader_monitor (s : State) : s.wantHeader.monitor = s.monitor := by
  unfold State.wantHeader
  split <;> simp

@[simp] theorem writeControl_monitor (v : Word) (s : State) : (s.writeControl v).monitor = s.monitor := by
  unfold State.writeControl
  split
  · rfl
  · have stored : (s.storeControl v).monitor = s.monitor := rfl
    dsimp only
    (repeat' split) <;> simp [stored]

@[simp] theorem writeSweep_monitor (s : State) : s.writeSweep.monitor = s.monitor := by
  unfold State.writeSweep
  split <;> simp

@[simp] theorem writeChange_monitor (v : Word) (s : State) : (s.writeChange v).monitor = s.monitor := by
  unfold State.writeChange
  split <;> rfl

@[simp] theorem writeRegister_monitor (offset : BitVec 12) (lanes : BitVec 4) (v : Word) (s : State) :
    (s.writeRegister offset lanes v).monitor = s.monitor := by
  unfold State.writeRegister
  (repeat' split) <;> simp [State.writeState]

@[simp] theorem enlist_monitor (u : UnitIx) (tag : Byte) (data : List Byte) (s : State) :
    (s.enlist u tag data).monitor = s.monitor := by
  unfold State.enlist
  (repeat' (first | split | dsimp only)) <;> simp [State.takeEnlist]

@[simp] theorem unitRequest_monitor (u : UnitIx) (data : List Byte) (s : State) :
    (s.unitRequest u data).monitor = s.monitor := by
  unfold State.unitRequest State.takeUnitRequest
  (repeat' (first | split | dsimp only)) <;> simp

@[simp] theorem unitBurst_monitor (u : UnitIx) (data : List Byte) (s : State) :
    (s.unitBurst u data).monitor = s.monitor := by
  unfold State.unitBurst
  dsimp only
  split <;> simp

@[simp] theorem feedRequest_monitor (f : FeedIx) (q : Option FeedRequest) (tag : Byte) (s : State) :
    (s.feedRequest f q tag).monitor = s.monitor := by
  unfold State.feedRequest
  dsimp only
  split <;> simp

@[simp] theorem deliverFeed_monitor (data : List Byte) (f : FeedIx) (s : State) :
    (s.deliverFeed data f).monitor = s.monitor := rfl

@[simp] theorem feedEntry_monitor (data : List Byte) (s : State) (f : FeedIx) :
    (s.feedEntry data f).monitor = s.monitor := by
  unfold State.feedEntry
  dsimp only
  split <;> simp

@[simp] theorem sweepBurst_monitor (n : Nat) (data : List Byte) (s : State) :
    (s.sweepBurst n data).monitor = s.monitor := by
  unfold State.sweepBurst
  split
  · simp
  · split
    · exact foldl_field State.monitor _ (fun s f => feedEntry_monitor data s f) _ s
    · split <;> simp

@[simp] theorem nextSweepBurst_monitor (n : Nat) (s : State) : (s.nextSweepBurst n).monitor = s.monitor := by
  unfold State.nextSweepBurst
  split <;> simp

@[simp] theorem adoptBurst_monitor (n : Nat) (data : List Byte) (s : State) :
    (s.adoptBurst n data).monitor = s.monitor := by
  unfold State.adoptBurst
  split
  · simp
  · split
    · dsimp only
      exact foldl_field State.monitor (fun s f => s.deliverFeed data f) (fun s f => deliverFeed_monitor data f s) _ s
    · split <;> rfl

@[simp] theorem nextAdoptBurst_monitor (n : Nat) (s : State) : (s.nextAdoptBurst n).monitor = s.monitor := by
  unfold State.nextAdoptBurst
  split <;> simp

@[simp] theorem loadHeader_monitor (data : List Byte) (s : State) : (s.loadHeader data).monitor = s.monitor := by
  unfold State.loadHeader
  dsimp only
  split <;> simp

@[simp] theorem afterHeader_monitor (s : State) : s.afterHeader.monitor = s.monitor := by
  unfold State.afterHeader
  (repeat' split) <;> simp

@[simp] theorem endBurst_monitor (s : State) : s.endBurst.monitor = s.monitor := rfl

/-- A burst that completes leaves the Supply Monitor alone where what it brings does. -/
theorem completeBurst_monitor (data : List Byte) (act : ReadUser → Option (State → State))
    (ha : ∀ x go, act x = some go → ∀ s : State, (go s).monitor = s.monitor) (s : State) :
    (s.completeBurst data act).monitor = s.monitor := by
  unfold State.completeBurst
  split
  · rfl
  · next b _ =>
    split
    · rfl
    · next go hgo => (repeat' split) <;> simp [ha _ go hgo]

theorem sendBurst_monitor {s t : State} (h : s.sendBurst = some t) : t.monitor = s.monitor := by
  unfold State.sendBurst at h
  split at h
  · cases h
  · split at h <;> cases h
    · rfl
    · rfl
    · split <;> rfl

theorem sendItem_monitor {s t : State} (h : s.sendItem = some t) : t.monitor = s.monitor := by
  unfold State.sendItem at h
  split at h
  · split at h <;> cases h
    rfl
  · cases h

@[simp] theorem completeWrite_monitor (s : State) : s.completeWrite.monitor = s.monitor := by
  unfold State.completeWrite
  split
  · rfl
  · dsimp only
    split <;> rfl

@[simp] theorem lineEvent_monitor (k : LineIx) (clk : Nat) (enabled : LineRecord → Bool) (effect : Runtime → Runtime)
    (s : State) : (s.lineEvent k clk enabled effect).monitor = s.monitor := by
  rw [lineEvent_eq]
  split <;> rfl

@[simp] theorem endSecond_monitor (s : State) : s.endSecond.monitor = s.monitor := by
  unfold State.endSecond
  split <;> rfl

@[simp] theorem sweepExpiry_monitor (s : State) : s.sweepExpiry.monitor = s.monitor := by
  unfold State.sweepExpiry
  split <;> simp

@[simp] theorem runToTick_monitor (s : State) : s.runToTick.monitor = s.monitor := rfl

@[simp] theorem countSecond_monitor (s : State) : s.countSecond.monitor = s.monitor := by
  unfold State.countSecond
  split <;> rfl

@[simp] theorem countPort_monitor (s : State) : s.countPort.monitor = s.monitor := rfl

@[simp] theorem tickFeeds_monitor (fault : BitVec 16) (s : State) : (s.tickFeeds fault).monitor = s.monitor :=
  foldl_field State.monitor _ (fun s f => trip_monitor f s) _ _

@[simp] theorem compare_monitor (s : State) : s.compare.monitor = s.monitor := rfl

end Machine

end Sys2Proof

namespace Sys2Proof

namespace Machine

/-! ### The Supply Monitor's own changes keep it sound -/

theorem satInc_le (n : Nat) : satInc n ≤ 65535 := Nat.min_le_right _ _

/-- Out of SETTLING a sound monitor holds no capture (R13). -/
theorem Monitor.Sound.noCapture {m : Monitor} (h : m.Sound) (hs : m.supply ≠ .settling) : m.capture = none := by
  obtain ⟨-, -, -, -, held, -⟩ := h
  exact Option.not_isSome_iff_eq_none.1 (mt held.1 hs)

/-- A monitor out of SETTLING is sound where it holds no capture, its counts are in range, and its gap counter is as its
state says. -/
theorem Monitor.sound_of_noCapture {m : Monitor} (hc : m.capture = none) (hs : m.supply ≠ .settling)
    (gap : m.gapCounter ≤ 65535) (settle : m.settleTimer ≤ 65535) (flickers : m.flickers ≤ 65535)
    (list : m.gapList.length ≤ 8) (rest : m.supply = .startup ∨ m.supply = .up → m.gapCounter = 0) : m.Sound :=
  ⟨gap, settle, flickers, list, by simp [hc, hs], by simp [hc], rest⟩

theorem Monitor.Sound.advance {m : Monitor} (h : m.Sound) : m.advance.Sound := by
  obtain ⟨gap, settle, flickers, list, held, duration, rest⟩ := h
  refine ⟨?_, ?_, flickers, list, held, duration, fun hs => ?_⟩
  · show (match m.supply with | .pending | .gap | .settling => _ | .startup | .up => _) ≤ _
    cases m.supply <;> first | exact satInc_le _ | exact gap
  · show (if m.supply = .settling then _ else _) ≤ _
    split
    · exact satInc_le _
    · exact settle
  · have zero := rest hs
    rcases hs with e | e <;> simpa [Monitor.advance, show m.supply = _ from e] using zero

/-- The filter is none of what soundness speaks of. -/
theorem Monitor.Sound.withFilter {m : Monitor} (h : m.Sound) (x : SupplyFilter) : Monitor.Sound { m with filter := x } := h

theorem Monitor.Sound.toUp {m : Monitor} (h : m.Sound) (hs : m.supply ≠ .settling) : m.toUp.Sound := by
  have none := h.noCapture hs
  obtain ⟨-, settle, flickers, list, -⟩ := h
  exact Monitor.sound_of_noCapture none (by simp [Monitor.toUp]) (Nat.zero_le _) settle flickers list fun _ => rfl

theorem Monitor.Sound.lose {m : Monitor} (h : m.Sound) (hs : m.supply = .up) : m.lose.Sound := by
  have none := h.noCapture (by simp [hs])
  obtain ⟨-, settle, flickers, list, -⟩ := h
  exact Monitor.sound_of_noCapture none (by simp [Monitor.lose]) (Nat.zero_le _) settle flickers list fun _ => rfl

theorem Monitor.Sound.flicker {m : Monitor} (h : m.Sound) (hs : m.supply = .pending) : m.flicker.Sound := by
  have none := h.noCapture (by simp [hs])
  obtain ⟨-, settle, -, list, -⟩ := h
  exact Monitor.sound_of_noCapture none (by simp [Monitor.flicker, Monitor.toUp]) (Nat.zero_le _) settle (satInc_le _)
    list fun _ => rfl

theorem Monitor.Sound.declare {m : Monitor} (h : m.Sound) (now : Word) (hs : m.supply ≠ .settling) :
    (m.declare now).Sound := by
  have none := h.noCapture hs
  obtain ⟨gap, settle, flickers, list, -⟩ := h
  exact Monitor.sound_of_noCapture none (by simp [Monitor.declare]) gap settle flickers list (by simp [Monitor.declare])

theorem Monitor.Sound.beginAbsent {m : Monitor} (h : m.Sound) (now : Word) (hs : m.supply ≠ .settling) :
    (m.beginAbsent now).Sound := by
  have none := h.noCapture hs
  obtain ⟨-, settle, flickers, list, -⟩ := h
  exact Monitor.sound_of_noCapture none (by simp [Monitor.beginAbsent, Monitor.declare]) (Nat.le_refl _) settle flickers
    list (by simp [Monitor.beginAbsent, Monitor.declare])

/-- The capture's duration is the gap counter, so it lies in range and is over-range at the counter's limit (R13). -/
theorem Monitor.Sound.settle {m : Monitor} (h : m.Sound) : m.settle.Sound := by
  obtain ⟨gap, -, flickers, list, -⟩ := h
  refine ⟨gap, Nat.zero_le _, flickers, list, by simp [Monitor.settle], fun c hc => ?_, by simp [Monitor.settle]⟩
  obtain rfl : _ = c := Option.some.inj hc
  exact ⟨gap, decide_eq_true_iff⟩

theorem Monitor.Sound.merge {m : Monitor} (h : m.Sound) : m.merge.Sound := by
  obtain ⟨gap, settle, flickers, list, -⟩ := h
  exact Monitor.sound_of_noCapture rfl (by simp [Monitor.merge]) gap settle flickers list (by simp [Monitor.merge])

theorem Monitor.Sound.shed {m : Monitor} (h : m.Sound) : Monitor.Sound { m with shed := true } := h

/-- The gap list never grows past its 8 records (R19). -/
theorem appendRecord_length_le (l : List GapRecord) (g : GapRecord) : (appendRecord l g).length ≤ 8 := by
  unfold appendRecord gapListLimit
  split <;> simp <;> omega

theorem Monitor.Sound.endSettling {m : Monitor} (h : m.Sound) (g : GapRecord) : (m.endSettling g).Sound := by
  obtain ⟨-, settle, flickers, -⟩ := h
  exact Monitor.sound_of_noCapture rfl (by simp [Monitor.endSettling, Monitor.toUp]) (Nat.zero_le _) settle flickers
    (appendRecord_length_le _ _) fun _ => rfl

/-! ### The Supply Monitor in the part's steps -/

theorem declareGap_monitor (s : State) : s.declareGap.monitor = s.monitor.declare s.uptimeNow := by
  simp [State.declareGap]

theorem shed_monitor (s : State) : s.shed.monitor = { s.monitor with shed := true } := rfl

theorem endSettling_monitor {s : State} {c : Capture} (h : s.monitor.capture = some c) :
    s.endSettling.monitor = s.monitor.endSettling (s.monitor.record c (s.handedClasses c)) := by
  simp [State.endSettling, h]

theorem endSettling_sound {s : State} (h : s.monitor.Sound) : s.endSettling.monitor.Sound := by
  cases hc : s.monitor.capture with
  | none => simpa [State.endSettling, hc] using h
  | some c => exact endSettling_monitor hc ▸ h.endSettling _

/-- Of the steps that a tick finds due, the gap declaration, the shed command and the end of settling change the
monitor. -/
theorem dueEffect_sound {s : State} (h : s.monitor.Sound) (d : Due) : (s.dueEffect d).monitor.Sound := by
  cases d with
  | gapDeclared =>
    unfold State.dueEffect
    dsimp only
    split
    · next hs => exact declareGap_monitor s ▸ h.declare _ (by simp [hs])
    · exact h
  | shedCommand =>
    unfold State.dueEffect
    dsimp only
    split
    · exact shed_monitor s ▸ h.shed
    · exact h
  | settlingEnd =>
    unfold State.dueEffect
    dsimp only
    split
    · exact endSettling_sound h
    · exact h
  | completionTimeout path =>
    cases path <;> unfold State.dueEffect <;> dsimp only <;> split <;> simpa using h
  | uptimeSecond | bootTimeout | attendTimerExpiry | pollTimerExpiry | sweepTimerExpiry =>
    simpa [State.dueEffect] using h
  | mainSwitchOn | feedReachedOn | cooldownEnd | provingTimeReached =>
    unfold State.dueEffect
    dsimp only
    split <;> simpa using h

theorem takeDue_sound {s : State} (h : s.monitor.Sound) (d : Due) : (s.takeDue d).monitor.Sound := by
  rw [takeDue_eq]
  split
  · exact dueEffect_sound (s := { s with due := s.due.erase d }) h d
  · exact h

theorem flush_sound {s : State} (h : s.monitor.Sound) : s.flush.monitor.Sound := by
  have fold : ∀ (l : List Due) (s : State), s.monitor.Sound → (l.foldl State.takeDue s).monitor.Sound := by
    intro l
    induction l with
    | nil => exact fun _ h => h
    | cons d l ih => exact fun s h => ih _ (takeDue_sound h d)
  exact fold _ s h

/-- The rule for each accepted change leads to a sound monitor (R7 to R14). -/
theorem supplyChange_sound {s : State} (h : s.monitor.Sound) (rep : SupplyReport) :
    (s.supplyChange rep).monitor.Sound := by
  unfold State.supplyChange
  split
  · next hs => exact h.toUp (by simp [hs])
  · next hs => exact (handGap_monitor _).symm ▸ h.beginAbsent _ (by simp [hs])
  · next hs => exact h.lose hs
  · next hs =>
    dsimp only
    split <;> exact h.flicker hs
  · exact h.settle
  · exact h.merge
  · exact h

theorem tickSupply_sound {s : State} (h : s.monitor.Sound) (lineOk : Bool) : (s.tickSupply lineOk).monitor.Sound := by
  unfold State.tickSupply
  dsimp only
  split
  · exact supplyChange_sound (h.advance.withFilter _) _
  · exact h.advance.withFilter _

theorem tick_sound {s : State} (h : s.monitor.Sound) (lineOk : Bool) (fault : BitVec 16) :
    (s.tick lineOk fault).monitor.Sound := by
  unfold State.tick
  dsimp only
  rw [compare_monitor]
  refine tickSupply_sound ?_ lineOk
  simpa using flush_sound h

theorem monitor_reset_sound : Monitor.reset.Sound :=
  Monitor.sound_of_noCapture rfl (by decide) (by decide) (by decide) (by decide) (by decide) fun _ => rfl

theorem exec_tick (lineOk : Bool) (fault : BitVec 16) (s : State) :
    exec (.tick lineOk fault) s = .next (s.tick lineOk fault) := rfl

/-- Apart from power-on reset, the tick and the steps it finds due, no command touches the Supply Monitor. -/
theorem exec_sound {c : Instr} {s t : State} (h : s.monitor.Sound) (e : exec c s = .next t) : t.monitor.Sound := by
  cases c with
  | powerOnReset => cases e; exact monitor_reset_sound
  | tick lineOk fault =>
    rw [exec_tick] at e
    exact Host.Outcome.next.inj e ▸ tick_sound h lineOk fault
  | uptimeSecond | gapDeclared | shedCommand | settlingEnd | mainSwitchOn | feedReachedOn | cooldownEnd
  | provingTimeReached | bootTimeout | attendTimerExpiry | pollTimerExpiry | sweepTimerExpiry | completionTimeout =>
    cases e; exact takeDue_sound h _
  | linkReset | changeRead | stateWrite => cases e; exact h
  | runStart | runRecovery | runStop | loadHeader | restart | ackMode | changeIe | stateIe | sweep | changeWrite
  | registerWrite | writeComplete =>
    cases e; simpa using h
  | frameTransmitted | pauseEnd | quietBreakHalfEnd | quietEnd | characterReceived | breakReceived | frameReceived
  | firstReplyTimeout | interCharacterTimeout | discardEnd | highTimerExpiry | arbiterChoice | startBitConfirmed =>
    cases e; simpa using h
  | busErrorCompletion path => cases path <;> cases e <;> simpa using h
  | readBurstSend sendable =>
    simp only [exec, execReadBurstSend] at e
    split at e
    · cases e; exact h
    · next sent => cases e; cases sendable <;> simpa [sendBurst_monitor sent] using h
  | writeBegin sendable =>
    simp only [exec, execWriteBegin] at e
    split at e
    · cases e; exact h
    · next sent => cases e; cases sendable <;> simpa [sendItem_monitor sent] using h
  | sweepBurstComplete data =>
    cases e
    rw [completeBurst_monitor]
    · exact h
    · rintro (_ | _ | _ | _) go ⟨⟩ s
      simp
  | adoptingSweepBurstComplete data =>
    cases e
    rw [completeBurst_monitor]
    · exact h
    · rintro (_ | _ | _ | _) go ⟨⟩ s
      simp
  | headerLoadComplete data =>
    cases e
    rw [completeBurst_monitor]
    · exact h
    · rintro (_ | _ | _ | _) go ⟨⟩ s
      simp
  | fetchComplete data =>
    cases e
    rw [completeBurst_monitor]
    · exact h
    · rintro (_ | _ | _ | _) go ⟨⟩ s
      dsimp only
      split <;> rfl

/-- Settles O7: the monitor stays sound along every command, by what each does to it. -/
theorem stepKeepsTheMonitorSound : Obligations.StepKeepsTheMonitorSound := by
  intro s t h e
  unfold step at e
  split at e
  · cases e; exact h
  · next rest _ => exact exec_sound (s := { s with pending := rest }) h e

end Machine

end Sys2Proof

namespace Sys2Proof

namespace Machine

/-! ### Reset values -/

@[simp] theorem reset_unit (u : UnitIx) : State.reset.rt.units[u] = UnitRecord.reset := Vector.getElem_replicate u.isLt

@[simp] theorem reset_line (k : LineIx) : State.reset.rt.lines[k] = LineRecord.reset := Vector.getElem_replicate k.isLt

@[simp] theorem reset_feed (f : FeedIx) : FeedControl.reset.feed[f] = FeedRecord.reset := Vector.getElem_replicate f.isLt

theorem reset_withinBudget : FeedControl.reset.WithinBudget :=
  ⟨by decide, by decide, by decide, fun _ h => nomatch h⟩

theorem reset_listsTheWaiting : FeedControl.reset.ListsTheWaiting := by
  refine ⟨List.nodup_nil, fun f => ?_⟩
  rw [reset_feed]
  simp [FeedControl.reset, FeedRecord.reset]

/-- Settles O3, each invariant from its own block's reset values. -/
theorem resetMeetsTheInvariants : Obligations.ResetMeetsTheInvariants := by
  refine ⟨reset_withinBudget, reset_listsTheWaiting, List.nodup_nil, monitor_reset_sound, fun gap => ?_⟩
  rcases gap with e | e <;> cases e

/-- Settles O9: the state after power-on reset is the reset state, but for the waiting commands. -/
theorem powerOnResetValues : Obligations.PowerOnResetValues := by
  intro s
  refine ⟨{ State.reset with pending := s.pending }, rfl, rfl, rfl, rfl, rfl, rfl, rfl, rfl, rfl, rfl, rfl, rfl, rfl, rfl,
    rfl, fun f => ?feed, rfl, rfl, rfl, reset_unit, fun k => ?line, rfl, rfl, rfl, rfl, rfl, rfl, rfl, rfl, rfl, rfl, rfl,
    rfl, rfl, rfl, rfl, rfl, ?state, rfl⟩
  case feed =>
    simp only [State.reset, reset_feed]
    exact ⟨rfl, rfl, rfl, rfl, rfl, rfl, rfl, rfl, rfl, rfl⟩
  case state => simp [State.stateValue, State.reset, Port.reset, Runtime.reset, Monitor.reset, modeCode, supplyCode]
  case line =>
    simp only [reset_line]
    exact ⟨rfl, rfl, rfl, rfl, rfl, rfl, rfl, rfl, rfl, rfl, rfl, rfl⟩

/-! ### A controller restart (R206, R207) -/

/-- A restart command is a restart of the controller with its value's KEEP_FEEDS. -/
theorem exec_restart (v : Word) (s : State) : exec (.restart v) s = .next (s.restart (v.getLsbD 3)) := by
  show Host.Outcome.next (s.writeControl (v ||| 4)) = _
  simp [State.writeControl, controlRestart, controlKeepFeeds]

theorem exec_linkReset (s : State) : exec .linkReset s = .next (s.restart true) := rfl

theorem restart_line (keep : Bool) (s : State) (k : LineIx) :
    (s.restart keep).rt.lines[k] = { s.monitor.restartedLine with tail := (s.rt.lines[k]).cutTail } :=
  Vector.getElem_map ..

theorem restart_feed (keep : Bool) (s : State) (f : FeedIx) :
    (s.restart keep).feeds.feed[f] = (s.feeds.feed[f]).restarted keep :=
  Vector.getElem_map ..

/-- A line after a restart is as at reset, but STOPPED where the supply state kept is GAP or SETTLING (R25, R122). -/
theorem restartedLine_eq (m : Monitor) :
    m.restartedLine =
      { LineRecord.reset with state := if m.supply = .gap ∨ m.supply = .settling then .stopped else .idle } := by
  unfold Monitor.restartedLine
  split <;> rfl

/-- Settles O10: the restart's state read field by field, each line's wire by what the cut left on it. -/
theorem restartKeepsAndClears : Obligations.RestartKeepsAndClears := by
  intro c v s hc
  have runs : exec c s = .next (s.restart (v.getLsbD 3)) := by
    rcases hc with rfl | ⟨rfl, keep⟩
    · exact exec_restart v s
    · rw [keep]; exact exec_linkReset s
  refine ⟨_, runs, rfl, rfl, rfl, rfl, rfl, rfl, rfl, rfl, rfl, rfl, rfl, rfl, rfl, rfl, rfl, rfl, rfl, rfl, rfl, rfl,
    fun u => Vector.getElem_replicate u.isLt, fun f => Vector.getElem_replicate f.isLt,
    fun i => ⟨Vector.getElem_replicate i.isLt, Vector.getElem_replicate i.isLt⟩, reset_unit, fun k => ?line, rfl, rfl,
    rfl, fun f => ?feed⟩
  case line =>
    rw [restart_line, restartedLine_eq]
    refine ⟨rfl, rfl, rfl, rfl, rfl, rfl, rfl, cutsTo_of_tail _ _ rfl ?_⟩
    dsimp only
    split <;> simp
  case feed =>
    rw [restart_feed]
    unfold FeedRecord.restarted
    split <;> rfl

/-! ### The two filters (R3, R4, R87) -/

theorem SupplyFilter.sample_same {x : SupplyFilter} {a : Bool} (ha : x.accepted = some a) :
    x.sample a = ({ x with differing := false }, none) := by
  simp [SupplyFilter.sample, ha]

theorem SupplyFilter.sample_first_differing {x : SupplyFilter} {a level : Bool} (ha : x.accepted = some a)
    (hl : level ≠ a) (hd : x.differing = false) : x.sample level = ({ x with differing := true }, none) := by
  simp [SupplyFilter.sample, ha, hl, hd]

theorem SupplyFilter.sample_second_differing {x : SupplyFilter} {a level : Bool} (ha : x.accepted = some a)
    (hl : level ≠ a) (hd : x.differing = true) :
    x.sample level =
      ({ x with accepted := some level, differing := false }, some (if level = true then .back else .loss)) := by
  simp [SupplyFilter.sample, ha, hl, hd]

theorem SupplyFilter.sample_candidate {x : SupplyFilter} {level : Bool} (ha : x.accepted = none)
    (hc : x.candidate = some level) :
    x.sample level = ({ x with accepted := some level, differing := false }, some (.initial level)) := by
  simp [SupplyFilter.sample, ha, hc]

theorem SupplyFilter.sample_new_candidate {x : SupplyFilter} {level : Bool} (ha : x.accepted = none)
    (hc : x.candidate ≠ some level) : x.sample level = ({ x with candidate := some level }, none) := by
  simp [SupplyFilter.sample, ha, hc]

theorem FeedRecord.sample_same {x : FeedRecord} {low : Bool} (h : low = x.faultActive) :
    x.sample (!low) = { x with faultDiffering := false } := by
  simp [FeedRecord.sample, h]

theorem FeedRecord.sample_first_differing {x : FeedRecord} {low : Bool} (h : low ≠ x.faultActive)
    (hd : x.faultDiffering = false) : x.sample (!low) = { x with faultDiffering := true } := by
  simp [FeedRecord.sample, h, hd]

theorem FeedRecord.sample_second_differing {x : FeedRecord} {low : Bool} (h : low ≠ x.faultActive)
    (hd : x.faultDiffering = true) :
    x.sample (!low) = { x with faultActive := low, faultDiffering := false } := by
  simp [FeedRecord.sample, h, hd]

/-- Settles O12, row by row of the two filters' tables. -/
theorem filtersTakeASample : Obligations.FiltersTakeASample :=
  ⟨fun _ _ _ ha => ⟨fun e => e ▸ SupplyFilter.sample_same ha, SupplyFilter.sample_first_differing ha,
      SupplyFilter.sample_second_differing ha⟩,
    fun _ _ ha => ⟨SupplyFilter.sample_candidate ha, SupplyFilter.sample_new_candidate ha⟩,
    fun _ _ => ⟨FeedRecord.sample_same, FeedRecord.sample_first_differing, FeedRecord.sample_second_differing⟩⟩

/-! ### Classification (R21, R22) -/

theorem holdThreshold_eq (x : Settings) (c : UnitConfig) :
    holdThreshold x c =
      if c.retain * x.derate / 256 < c.ride * x.derate / 256 then c.ride * x.derate / 256
      else c.retain * x.derate / 256 := by
  unfold holdThreshold rideThreshold
  split <;> omega

theorem ride_le_hold (x : Settings) (c : UnitConfig) : rideThreshold x c ≤ holdThreshold x c := Nat.le_max_right _ _

/-- A derated 16-bit length stays within 24 bits, and its threshold within 16 (R21). -/
theorem derated_le {n d : Nat} (hn : n ≤ 65535) (hd : d ≤ 256) : n * d ≤ 16776960 ∧ n * d / 256 ≤ 65535 := by
  have := Nat.mul_le_mul hn hd
  omega

theorem holdThreshold_le {x : Settings} {c : UnitConfig} (ride : c.ride ≤ 65535) (retain : c.retain ≤ 65535)
    (derate : x.derate ≤ 256) : holdThreshold x c ≤ 65535 :=
  Nat.max_le.2 ⟨(derated_le retain derate).2, (derated_le ride derate).2⟩

/-- A unit retained no longer than it rides through has equal thresholds (R21). -/
theorem hold_eq_ride {x : Settings} {c : UnitConfig} (h : c.retain ≤ c.ride) : holdThreshold x c = rideThreshold x c :=
  Nat.max_eq_right (Nat.div_le_div_right (Nat.mul_le_mul_right _ h))

theorem classify_forced {x : Settings} {c : Capture} {u : UnitRecord}
    (h : u.forceCold = true ∨ u.imageValid = false ∨ c.overRange = true) : classify x c u = .cold :=
  if_pos h

/-- Where nothing forces COLD, the first threshold that the gap with its guard does not pass gives the class (R22). -/
theorem classify_by_threshold {x : Settings} {c : Capture} {u : UnitRecord} (hf : u.forceCold = false)
    (hv : u.imageValid = true) (ho : c.overRange = false) :
    classify x c u =
      if c.duration + x.guard ≤ rideThreshold x u.config then .rode
      else if c.duration + x.guard ≤ holdThreshold x u.config then .warm else .cold := by
  simp [classify, hf, hv, ho]

theorem classify_ne_warm {x : Settings} {c : Capture} {u : UnitRecord} (h : u.config.retain ≤ u.config.ride) :
    classify x c u ≠ .warm := by
  unfold classify
  rw [hold_eq_ride h]
  (repeat' split) <;> simp

/-- Settles O17: the thresholds by their arithmetic, the class by the rows of R22 in turn. -/
theorem gapClasses : Obligations.GapClasses := by
  intro x c u
  refine ⟨rfl, holdThreshold_eq x u.config, ?_, fun ride retain derate => ?_, fun duration guard => by omega,
    classify_forced, fun hf hv ho => ?_, classify_ne_warm⟩
  · exact holdThreshold_eq x u.config ▸ ride_le_hold x u.config
  · exact ⟨(derated_le ride derate).1, (derated_le retain derate).1,
      holdThreshold_eq x u.config ▸ holdThreshold_le ride retain derate⟩
  · have below := ride_le_hold x u.config
    rw [classify_by_threshold hf hv ho, ← holdThreshold_eq x u.config]
    change (c.duration + x.guard ≤ rideThreshold x u.config → _)
      ∧ (rideThreshold x u.config < c.duration + x.guard → _) ∧ _
    refine ⟨fun rides => if_pos rides, fun late holds => ?_, fun late => ?_⟩
    · rw [if_neg (by omega), if_pos holds]
    · rw [if_neg (by omega), if_neg (by omega)]

end Machine

end Sys2Proof

namespace Sys2Proof

namespace Machine

/-! ### The bytes of the items (R19, R38, R99, R177) -/

theorem resultPart_length (x : UnitRecord) : (resultPart x).length = 64 := by
  simp [resultPart, halfBytes, wordBytes]

theorem gapMirror_length (l : List GapRecord) : (gapMirror l).length = 256 := by
  unfold gapMirror
  rw [List.length_take, List.length_append, List.length_replicate]
  omega

theorem lineCounters_length (l : LineRecord) : (lineCounters l).length = 8 := rfl

/-- Of chunks of one length laid end to end, the one at an index. -/
theorem flatten_chunk {α : Type} {n : Nat} (chunks : List (List α)) (h : ∀ c ∈ chunks, c.length = n) {k : Nat}
    (hk : k < chunks.length) : (chunks.flatten.drop (n * k)).take n = chunks[k] := by
  induction chunks generalizing k with
  | nil => cases hk
  | cons c rest ih =>
    have hc : c.length = n := h c (List.mem_cons_self ..)
    cases k with
    | zero => simp [← hc]
    | succ k =>
      have shift : n * (k + 1) = c.length + n * k := by rw [hc, Nat.mul_succ, Nat.add_comm]
      rw [List.flatten_cons, shift, List.drop_append, List.drop_eq_nil_of_le (Nat.le_add_right ..),
        List.getElem_cons_succ]
      simpa using ih (fun c hc => h c (List.mem_cons_of_mem _ hc)) (Nat.lt_of_succ_lt_succ hk)

/-- The first 8 bytes of the header status: the edition adopted, the budget in force and the flicker count. -/
def State.headerStatusHead (s : State) : List Byte :=
  halfBytes s.port.adoptedEdition ++ [byteOf s.feeds.budget, 0] ++ halfBytes (halfOf s.monitor.flickers) ++ [0, 0]

/-- The counters of every line, in line order. -/
def State.counterChunks (s : State) : List (List Byte) := s.rt.lines.toList.map lineCounters

theorem headerStatus_eq (s : State) : s.headerStatus = s.headerStatusHead ++ s.counterChunks.flatten := rfl

theorem headerStatusHead_length (s : State) : s.headerStatusHead.length = 8 := rfl

theorem counterChunks_length_eq (s : State) : ∀ c ∈ s.counterChunks, c.length = 8 := by
  simp [State.counterChunks, lineCounters_length]

theorem headerStatus_length (s : State) : s.headerStatus.length = 72 := by
  have each : s.counterChunks.map List.length = List.replicate 8 8 :=
    List.eq_replicate_iff.2 ⟨by simp [State.counterChunks], by simpa using counterChunks_length_eq s⟩
  rw [headerStatus_eq, List.length_append, headerStatusHead_length, List.length_flatten, each]
  rfl

theorem headerStatus_take (s : State) : s.headerStatus.take 8 = s.headerStatusHead := by
  rw [headerStatus_eq, List.take_append_of_le_length (Nat.le_of_eq (headerStatusHead_length s).symm)]
  rfl

theorem headerStatus_line (s : State) (k : LineIx) :
    (s.headerStatus.drop (8 + 8 * k.val)).take 8 = lineCounters s.rt.lines[k] := by
  have hk : k.val < s.counterChunks.length := by simp [State.counterChunks]
  have head : s.headerStatus.drop (8 + 8 * k.val) = s.counterChunks.flatten.drop (8 * k.val) := by
    rw [headerStatus_eq, ← headerStatusHead_length s, List.drop_append]
    simp
  rw [head, flatten_chunk _ (counterChunks_length_eq s) hk]
  simp [State.counterChunks]

/-! ### An item's write begins (R191, R192) -/

theorem sendItem_none {s : State} (h : s.rt.mode ≠ .running ∨ s.port.write.isSome = true ∨ s.rt.queue = []) :
    s.sendItem = none := by
  unfold State.sendItem
  split
  · next free front =>
    have stopped : s.rt.mode ≠ .running := by simpa [free, front] using h
    simp [stopped]
  · rfl

theorem sendItem_some {s : State} {i : Item} {rest : List Item} (hm : s.rt.mode = .running) (hw : s.port.write = none)
    (hq : s.rt.queue = i :: rest) : s.sendItem = some (s.beginWrite i rest) := by
  simp [State.sendItem, hm, hw, hq]

/-- The write of an item with its content as it stands once the item is taken. -/
def State.itemWrite (s : State) (i : Item) (rest : List Item) : ItemWrite :=
  { item := i, live := true, timer := 0
    writes := ((s.onRt (Runtime.takeItem i rest)).itemBytes i).map fun w => (areaAddress s.port.base w.1, w.2) }

theorem takeItem_other {i : Item} (h : ∀ u, i ≠ .unitResult u) (rest : List Item) (r : Runtime) :
    r.takeItem i rest = { r with queue := rest } := by
  cases i with
  | unitResult u => exact absurd rfl (h u)
  | feedStatus | gapList | headerStatus => rfl

theorem takeItem_mode (i : Item) (rest : List Item) (r : Runtime) : (r.takeItem i rest).mode = r.mode := by
  cases i <;> rfl

/-- An area fault in RUNNING leads to AREA_FAULT, and the write queue keeps its front. -/
theorem areaFault_running {s : State} (h : s.rt.mode = .running) :
    s.areaFault.rt.mode = .areaFault ∧ ∃ l, s.areaFault.rt.queue = s.rt.queue ++ l := by
  have loads : ({ s.rt with mode := .areaFault } : Runtime).Extends s.areaFault.rt := by
    rw [State.areaFault, if_pos (Or.inl h)]
    exact failLoads_extends (.refl _)
  exact ⟨loads.mode, loads.tail⟩

/-- A write that fails in RUNNING returns its item to the head of the queue (R192). -/
theorem failWrite_running {s : State} {w : ItemWrite} (hw : s.port.write = some w) (hl : w.live = true)
    (hm : s.rt.mode = .running) :
    s.failWrite.rt.mode = .areaFault ∧ s.failWrite.rt.queue.head? = some w.item := by
  rw [State.failWrite, hw]
  dsimp only
  rw [if_pos hl]
  obtain ⟨mode, l, queue⟩ := areaFault_running
    (s := State.onRt (fun r => { r with queue := w.item :: r.queue.erase w.item })
      { s with port := { s.port with write := none } }) hm
  exact ⟨mode, by rw [queue]; rfl⟩

/-- Settles O37: the write's begin, item by item, and a write that cannot be sent by the rule of its failure. -/
theorem writeBegins : Obligations.WriteBegins := by
  intro s
  refine ⟨fun h => ?_, fun i rest hm hw hq => ?_⟩
  · simp [exec, execWriteBegin, sendItem_none h]
  · have sent := sendItem_some hm hw hq
    obtain ⟨failed, front⟩ := failWrite_running (s := s.beginWrite i rest) (w := s.itemWrite i rest) rfl rfl
      ((takeItem_mode i rest s.rt).trans hm)
    refine ⟨s.beginWrite i rest, s.itemWrite i rest, by simp [exec, execWriteBegin, sent], rfl, rfl, rfl, rfl, ?unit,
      fun other => takeItem_other other rest s.rt, ?feed, ?gaps, ?header, rfl, rfl, rfl, rfl, rfl,
      (s.beginWrite i rest).failWrite, by simp [exec, execWriteBegin, sent], failed, front⟩
    case unit =>
      rintro u rfl
      refine ⟨rfl, ?_, resultPart_length _⟩
      have offset : 0x800 + 128 * u.val + 0x40 = 0x840 + 128 * u.val := by omega
      rw [← offset]
      rfl
    case feed =>
      rintro f rfl
      have offset : 0x100 + 32 * f.val + 0x10 = 0x110 + 32 * f.val := by omega
      rw [← offset]
      rfl
    case gaps =>
      rintro rfl
      exact ⟨rfl, gapMirror_length _⟩
    case header =>
      rintro rfl
      refine ⟨s.headerStatus, ?_, headerStatus_length s, headerStatus_take s, headerStatus_line s⟩
      have offset : ∀ j : ImageIx, 0x400 + 32 * j.val + 0x14 = 0x414 + 32 * j.val := fun j => by omega
      have suspects : s.suspectBytes.map (fun w => (areaAddress s.port.base w.1, w.2))
          = (List.finRange 16).map fun j : ImageIx =>
            (s.port.base + BitVec.ofNat 64 (0x414 + 32 * j.val), [if s.rt.suspect[j].isSome = true then 1 else 0]) := by
        unfold State.suspectBytes
        rw [List.map_map]
        exact List.map_congr_left fun j _ => by rw [← offset j]; rfl
      rw [← suspects]
      rfl

end Machine

end Sys2Proof

namespace Sys2Proof

namespace Machine

/-! ### Acting on each unit and each line in turn -/

/-- An entry that none of a fold's steps owns stays as it is. -/
theorem foldl_skip {σ ι β : Type} (get : σ → ι → β) (act : ι → σ → σ)
    (other : ∀ i j s, j ≠ i → get (act i s) j = get s j) {l : List ι} (s : σ) {i : ι} (hi : i ∉ l) :
    get (l.foldl (fun s i => act i s) s) i = get s i := by
  induction l generalizing s with
  | nil => rfl
  | cons j l ih =>
    rw [List.foldl_cons, ih _ (fun h => hi (List.mem_cons_of_mem _ h)),
      other _ _ _ (fun e => hi (List.mem_cons.2 (Or.inl e)))]

/-- A fold in which each step changes its own entry alone changes each entry once. -/
theorem foldl_entry {σ ι β : Type} (get : σ → ι → β) (act : ι → σ → σ) (g : ι → β → β)
    (own : ∀ i s, get (act i s) i = g i (get s i)) (other : ∀ i j s, j ≠ i → get (act i s) j = get s j)
    {l : List ι} (nd : l.Nodup) (s : σ) {i : ι} (hi : i ∈ l) :
    get (l.foldl (fun s i => act i s) s) i = g i (get s i) := by
  induction l generalizing s with
  | nil => cases hi
  | cons j l ih =>
    obtain ⟨hj, nd⟩ := List.nodup_cons.1 nd
    rw [List.foldl_cons]
    by_cases e : i = j
    · subst e
      rw [foldl_skip get act other _ hj, own]
    · have tail : i ∈ l := (List.mem_cons.1 hi).resolve_left e
      rw [ih nd _ tail, other _ _ _ e]

/-- Where each unit's action changes that unit alone, every unit's record is changed once. -/
theorem eachUnit_unit {f : UnitIx → Runtime → Runtime} {g : UnitIx → UnitRecord → UnitRecord}
    (hf : ∀ u r, (f u r).units = r.units.set u (g u r.units[u])) (r : Runtime) (u : UnitIx) :
    (r.eachUnit f).units[u] = g u r.units[u] :=
  foldl_entry (fun r u => r.units[u]) f g (fun u r => by simp [hf])
    (fun u v r ne => by
      have : u.val ≠ v.val := fun e => ne (Fin.ext e.symm)
      simp [hf, this])
    (List.nodup_finRange _) r (List.mem_finRange u)

/-- Where each line's action changes that line alone, every line's record is changed once. -/
theorem eachLine_line {f : LineIx → Runtime → Runtime} {g : LineIx → LineRecord → LineRecord}
    (hf : ∀ k r, (f k r).lines = r.lines.set k (g k r.lines[k])) (r : Runtime) (k : LineIx) :
    (r.eachLine f).lines[k] = g k r.lines[k] :=
  foldl_entry (fun r k => r.lines[k]) f g (fun k r => by simp [hf])
    (fun j k r ne => by
      have : j.val ≠ k.val := fun e => ne (Fin.ext e.symm)
      simp [hf, this])
    (List.nodup_finRange _) r (List.mem_finRange k)

theorem eachUnit_field {β : Type} (p : Runtime → β) {f : UnitIx → Runtime → Runtime} (hf : ∀ u r, p (f u r) = p r)
    (r : Runtime) : p (r.eachUnit f) = p r := foldl_field p _ (fun r u => hf u r) _ r

theorem eachLine_field {β : Type} (p : Runtime → β) {f : LineIx → Runtime → Runtime} (hf : ∀ k r, p (f k r) = p r)
    (r : Runtime) : p (r.eachLine f) = p r := foldl_field p _ (fun r k => hf k r) _ r

/-! ### A unit takes a gap declaration (R55) -/

/-- The record once its request in flight, if any, is answered. -/
def UnitRecord.closed (code : AnswerCode) (x : UnitRecord) : UnitRecord :=
  match x.inFlight with
  | none => x
  | some q => { x with inFlight := none, answerTag := q.tag, answerCode := code }

@[simp] theorem closeInFlight_units (u : UnitIx) (code : AnswerCode) (r : Runtime) :
    (r.closeInFlight u code).units = r.units.set u ((r.units[u]).closed code) := by
  unfold Runtime.closeInFlight UnitRecord.closed
  cases r.units[u].inFlight <;> simp

/-- The record of a unit after a gap declaration (R55). -/
def UnitRecord.ridden (x : UnitRecord) : UnitRecord :=
  if x.run = .unmanaged ∨ x.run = .riding then x
  else if x.editOrRelease then x.toRiding.closed .cut else x.toRiding

theorem ride_units (u : UnitIx) (r : Runtime) : (r.ride u).units = r.units.set u (r.units[u]).ridden := by
  unfold Runtime.ride UnitRecord.ridden
  dsimp only
  split
  · simp
  · split <;> simp

theorem ride_lines (u : UnitIx) (r : Runtime) : (r.ride u).lines = r.lines := by
  unfold Runtime.ride
  dsimp only
  (repeat' split) <;> simp

theorem ride_fetchList (u : UnitIx) (r : Runtime) : (r.ride u).fetchList = r.fetchList := by
  unfold Runtime.ride
  dsimp only
  (repeat' split) <;> simp

theorem ride_suspect (u : UnitIx) (r : Runtime) : (r.ride u).suspect = r.suspect := by
  unfold Runtime.ride
  dsimp only
  (repeat' split) <;> simp

/-- An edit or release in flight is cut; any other request stays in flight (R55). -/
theorem closed_cut_inFlight {x : UnitRecord} {q : InFlight} (h : x.inFlight = some q) :
    x.closed .cut = { x with inFlight := none, answerTag := q.tag, answerCode := .cut } := by
  simp [UnitRecord.closed, h]

theorem ridden_run (x : UnitRecord) : x.ridden.run = if x.run = .unmanaged then .unmanaged else .riding := by
  unfold UnitRecord.ridden UnitRecord.closed
  split
  · next h => rcases h with h | h <;> simp [h]
  · next h =>
    have managed : x.run ≠ .unmanaged := fun e => h (Or.inl e)
    rw [if_neg managed]
    (repeat' split) <;> rfl

/-- What stays and what goes of a managed unit's record at a gap declaration, but for its request in flight. -/
theorem ridden_of_managed {x : UnitRecord} (h : ¬ (x.run = .unmanaged ∨ x.run = .riding)) :
    x.ridden.run = .riding ∧ x.ridden.bootTimer = none ∧ x.ridden.attendTimer = none ∧ x.ridden.pollTimer = none
      ∧ x.ridden.probePending = x.probePending ∧ x.ridden.runClass = x.runClass ∧ x.ridden.context = x.context
      ∧ x.ridden.contextSeq = x.contextSeq ∧ x.ridden.editPending = x.editPending
      ∧ (x.run = .loading ∨ x.run = .verifying → x.ridden.imageValid = false ∧ x.ridden.forceCold = true)
      ∧ (x.run = .failed → x.ridden.cause = .blank) := by
  have riding : x.toRiding.run = .riding ∧ x.toRiding.bootTimer = none ∧ x.toRiding.attendTimer = none
      ∧ x.toRiding.pollTimer = none ∧ x.toRiding.probePending = x.probePending ∧ x.toRiding.runClass = x.runClass
      ∧ x.toRiding.context = x.context ∧ x.toRiding.contextSeq = x.contextSeq
      ∧ x.toRiding.editPending = x.editPending
      ∧ (x.run = .loading ∨ x.run = .verifying → x.toRiding.imageValid = false ∧ x.toRiding.forceCold = true)
      ∧ (x.run = .failed → x.toRiding.cause = .blank) := by
    unfold UnitRecord.toRiding UnitRecord.loadCut
    split
    · next cut => simp [UnitRecord.stopTimers, cut]; rcases cut with e | e <;> simp [e]
    · next cut => simp +contextual [UnitRecord.stopTimers, cut]
  unfold UnitRecord.ridden
  rw [if_neg h]
  split
  · unfold UnitRecord.closed
    split <;> exact riding
  · exact riding

theorem ridden_inFlight {x : UnitRecord} (h : ¬ (x.run = .unmanaged ∨ x.run = .riding)) {q : InFlight}
    (hq : x.inFlight = some q) :
    if q.request = .contextEdit ∨ q.request = .releaseDoor then
      x.ridden.inFlight = none ∧ x.ridden.answerTag = q.tag ∧ x.ridden.answerCode = .cut
    else x.ridden.inFlight = some q := by
  have kept : x.toRiding.inFlight = some q := by
    unfold UnitRecord.toRiding UnitRecord.loadCut
    split <;> exact hq
  have edits : x.editOrRelease = decide (q.request = .contextEdit ∨ q.request = .releaseDoor) := by
    simp [UnitRecord.editOrRelease, hq]
  unfold UnitRecord.ridden
  rw [if_neg h, edits]
  by_cases e : q.request = .contextEdit ∨ q.request = .releaseDoor
  · rw [if_pos e, if_pos (decide_eq_true e), closed_cut_inFlight kept]
    exact ⟨rfl, rfl, rfl⟩
  · rw [if_neg e, if_neg (by simpa using e)]
    exact kept

/-! ### The lines stop (R120) -/

@[simp] theorem dropFetches_lines (r : Runtime) : r.dropFetches.lines = r.lines := rfl

@[simp] theorem dropFetches_units (r : Runtime) : r.dropFetches.units = r.units := rfl

@[simp] theorem dropFetches_suspect (r : Runtime) : r.dropFetches.suspect = r.suspect := rfl

theorem stopLines_line (r : Runtime) (k : LineIx) : r.stopLines.lines[k] = (r.lines[k]).stopForGap := by
  simp only [Runtime.stopLines, dropFetches_lines]
  exact eachLine_line (g := fun _ => LineRecord.stopForGap) (fun k r => by simp) r k

theorem stopLines_units (r : Runtime) : r.stopLines.units = r.units := by
  simp only [Runtime.stopLines, dropFetches_units]
  exact eachLine_field Runtime.units (fun k r => by simp) r

theorem stopLines_suspect (r : Runtime) : r.stopLines.suspect = r.suspect := by
  simp only [Runtime.stopLines, dropFetches_suspect]
  exact eachLine_field Runtime.suspect (fun k r => by simp) r

theorem stopLines_fetchList (r : Runtime) : r.stopLines.fetchList = [] := rfl

theorem stopForGap_stopped (l : LineRecord) : l.stopForGap.Stopped := ⟨rfl, rfl, rfl, rfl⟩

theorem stopForGap_strays (l : LineRecord) :
    l.stopForGap.strays = min (l.strays + (l.fifo.length + l.shift.toList.length)) 65535 := by
  show satAdd l.strays (l.fifo ++ l.shift.toList).length = _
  rw [List.length_append]
  rfl

theorem stopForGap_cuts (l : LineRecord) : l.CutsTo l.stopForGap :=
  cutsTo_of_tail _ _ rfl (Or.inr (Or.inr rfl))

/-! ### The feeds take a gap declaration (R84, R91) -/

theorem declareGap_feed (fc : FeedControl) (f : FeedIx) :
    fc.declareGap.feed[f] =
      if fc.feed[f].state = .softstart then { fc.feed[f] with state := .shed, mainOn := false } else fc.feed[f] := by
  have settled : ∀ c : FeedControl, c.settleBudget.feed = c.feed := by
    intro c
    unfold FeedControl.settleBudget
    (repeat' split) <;> rfl
  unfold FeedControl.declareGap
  rw [settled]
  exact Vector.getElem_map ..

theorem declareGap_not_softstart (fc : FeedControl) (f : FeedIx) : fc.declareGap.feed[f].state ≠ .softstart := by
  rw [declareGap_feed]
  split
  · simp
  · next h => exact h

/-- With every soft start cut, no feed starts, and a pending budget takes force. -/
theorem declareGap_budget (fc : FeedControl) :
    fc.declareGap.admission = fc.admission ∧ fc.declareGap.budget = fc.pendingBudget.getD fc.budget
      ∧ fc.declareGap.pendingBudget = none := by
  have cut : FeedControl.starting { fc with
      feed := fc.feed.map fun x => if x.state = .softstart then { x with state := .shed, mainOn := false } else x }
      = false := by
    simp only [FeedControl.starting, Vector.toList_map, List.any_map, List.any_eq_false]
    intro x _
    dsimp only [Function.comp]
    split <;> simp [*]
  unfold FeedControl.declareGap FeedControl.settleBudget
  rw [cut]
  cases h : fc.pendingBudget <;> simp

theorem declareGap_takesForce {fc : FeedControl} (h : fc.pendingBudget.isSome = true) :
    fc.budgetTakesForce fc.declareGap = true := by
  simp [FeedControl.budgetTakesForce, h, (declareGap_budget fc).2.2]

/-! ### A gap declaration handed to the blocks (R10) -/

theorem eachRide_line (r : Runtime) (k : LineIx) : (r.eachUnit Runtime.ride).lines[k] = r.lines[k] :=
  eachUnit_field (fun r => r.lines[k]) (fun u r => by rw [ride_lines]) r

theorem eachRide_fetchList (r : Runtime) : (r.eachUnit Runtime.ride).fetchList = r.fetchList :=
  eachUnit_field Runtime.fetchList ride_fetchList r

theorem eachRide_suspect (r : Runtime) : (r.eachUnit Runtime.ride).suspect = r.suspect :=
  eachUnit_field Runtime.suspect ride_suspect r

theorem handGap_feeds (s : State) : s.handGap.feeds = s.feeds.declareGap := rfl

theorem handGap_port (s : State) : s.handGap.port = s.port := by simp [State.handGap]

theorem handGap_clock (s : State) : s.handGap.clock = s.clock := by simp [State.handGap]

theorem handGap_pending (s : State) : s.handGap.pending = s.pending := by simp [State.handGap]

theorem handGap_due (s : State) : s.handGap.due = s.due := by simp [State.handGap]

theorem handGap_extends (s : State) : s.rt.Extends s.handGap.rt := by
  simp only [State.handGap, State.setFeeds_rt, State.onRt_rt]
  exact handFeeds_extends _ _ (eachUnit_extends (fun u r h => ride_extends u h) (stopLines_extends (.refl _)))

theorem handGap_unit (s : State) (u : UnitIx) : s.handGap.rt.units[u] = (s.rt.units[u]).ridden := by
  simp only [State.handGap, State.setFeeds_rt, State.onRt_rt, Runtime.handFeeds_units]
  rw [eachUnit_unit (g := fun _ => UnitRecord.ridden) ride_units, stopLines_units]

theorem handGap_line (s : State) (k : LineIx) : s.handGap.rt.lines[k] = (s.rt.lines[k]).stopForGap := by
  simp only [State.handGap, State.setFeeds_rt, State.onRt_rt, Runtime.handFeeds_lines]
  exact (eachRide_line _ k).trans (stopLines_line _ k)

theorem handGap_fetchList (s : State) : s.handGap.rt.fetchList = [] := by
  simp only [State.handGap, State.setFeeds_rt, State.onRt_rt, Runtime.handFeeds_fetchList]
  rw [eachRide_fetchList s.rt.stopLines, stopLines_fetchList]

theorem handGap_suspect (s : State) : s.handGap.rt.suspect = s.rt.suspect := by
  simp only [State.handGap, State.setFeeds_rt, State.onRt_rt, Runtime.handFeeds_suspect]
  rw [eachRide_suspect s.rt.stopLines, stopLines_suspect]

/-- A pending budget that the cut soft starts let take force hands the header status (R190). -/
theorem handGap_headerStatus {s : State} (h : s.feeds.pendingBudget.isSome = true) (hm : s.rt.mode ≠ .stopped) :
    Item.headerStatus ∈ s.handGap.rt.queue := by
  simp only [State.handGap, State.setFeeds_rt, State.onRt_rt, State.onRt_feeds]
  refine handFeeds_headerStatus _ _ _ (declareGap_takesForce h) ?_
  have lines : s.rt.Extends (s.rt.stopLines.eachUnit Runtime.ride) :=
    eachUnit_extends (fun u r h => ride_extends u h) (stopLines_extends (.refl _))
  rw [lines.mode]
  exact hm

/-- Settles O14: the monitor by its own rule, the units, the lines and the feeds by what each takes of the declaration. -/
theorem gapDeclaration : Obligations.GapDeclaration := by
  intro s due pending
  have runs : exec .gapDeclared s = .next (State.declareGap { s with due := s.due.erase .gapDeclared }) := by
    show Host.Outcome.next (s.takeDue .gapDeclared) = _
    rw [takeDue_eq, if_pos due]
    exact congrArg Host.Outcome.next (if_pos pending)
  refine ⟨_, runs, declareGap_monitor _, ?_⟩
  unfold State.declareGap
  have kept := handGap_extends (State.raise .gapDeclared
    { s with due := s.due.erase .gapDeclared
             monitor := s.monitor.declare (State.uptimeNow { s with due := s.due.erase .gapDeclared }) })
  refine ⟨handGap_port _, handGap_clock _, handGap_pending _, handGap_due _, kept.mode, kept.settings, kept.directory,
    handGap_suspect _, fun u => ?unit, fun k => ?line, handGap_fetchList _, declareGap_feed s.feeds,
    (declareGap_budget s.feeds).1, (declareGap_budget s.feeds).2.1, (declareGap_budget s.feeds).2.2,
    handGap_headerStatus⟩
  case unit =>
    rw [handGap_unit]
    by_cases h : s.rt.units[u].run = .unmanaged ∨ s.rt.units[u].run = .riding
    · rw [if_pos h]
      exact if_pos h
    · rw [if_neg h]
      obtain ⟨run, boot, attend, poll, probe, cls, context, seq, edit, load, cause⟩ := ridden_of_managed h
      exact ⟨run, boot, attend, poll, probe, cls, context, seq, edit, load, cause, fun q hq => ridden_inFlight h hq⟩
  case line =>
    rw [handGap_line]
    exact ⟨stopForGap_stopped _, rfl, stopForGap_strays _, rfl, rfl, stopForGap_cuts _, rfl⟩

end Machine

end Sys2Proof

namespace Sys2Proof

namespace Machine

/-! ### The feeds on a tick (R87, R88) -/

theorem trip_clock (f : FeedIx) (s : State) : (s.trip f).clock = s.clock := by
  unfold State.trip State.afterSoftStart
  split <;> simp

theorem trip_due (f : FeedIx) (s : State) : (s.trip f).due = s.due := by
  unfold State.trip State.afterSoftStart
  split <;> simp

theorem trip_pending (f : FeedIx) (s : State) : (s.trip f).pending = s.pending := by
  unfold State.trip State.afterSoftStart
  split <;> simp

theorem trip_port (f : FeedIx) (s : State) : (s.trip f).port = { s.port with events := s.port.events ||| 4 } := by
  unfold State.trip State.afterSoftStart
  split <;> simp [eventBit]

theorem trip_extends (f : FeedIx) {r : Runtime} {s : State} (h : r.Extends s.rt) : r.Extends (s.trip f).rt := by
  unfold State.trip State.afterSoftStart
  split <;> simp (maxDischargeDepth := 30) [h]

theorem tickFeeds_clock (fault : BitVec 16) (s : State) : (s.tickFeeds fault).clock = s.clock :=
  foldl_field State.clock _ (fun s f => trip_clock f s) _ _

theorem tickFeeds_due (fault : BitVec 16) (s : State) : (s.tickFeeds fault).due = s.due :=
  foldl_field State.due _ (fun s f => trip_due f s) _ _

theorem tickFeeds_pending (fault : BitVec 16) (s : State) : (s.tickFeeds fault).pending = s.pending :=
  foldl_field State.pending _ (fun s f => trip_pending f s) _ _

theorem tickFeeds_change (fault : BitVec 16) (s : State) : (s.tickFeeds fault).port.change = s.port.change := by
  unfold State.tickFeeds
  rw [foldl_field (fun s : State => s.port.change) _ (fun s f => by rw [trip_port])]

/-- A trip raises FEED_EVENT alone, so the gap event stays as it was. -/
theorem tickFeeds_gapEvent (fault : BitVec 16) (s : State) :
    (s.tickFeeds fault).port.events &&& 1 = s.port.events &&& 1 := by
  have feedEvent : ∀ e : BitVec 5, (e ||| 4) &&& 1 = e &&& 1 := by decide
  unfold State.tickFeeds
  rw [foldl_field (fun s : State => s.port.events &&& 1) _ (fun s f => by rw [trip_port]; exact feedEvent _)]

theorem tickFeeds_extends (fault : BitVec 16) (s : State) : s.rt.Extends (s.tickFeeds fault).rt := by
  have fold : ∀ (l : List FeedIx) (t : State), s.rt.Extends t.rt → s.rt.Extends (l.foldl (fun s f => s.trip f) t).rt := by
    intro l
    induction l with
    | nil => exact fun _ h => h
    | cons f l ih => exact fun t h => ih _ (trip_extends f h)
  exact fold _ _ (.refl _)

/-- Where no feed trips, the samples and the timers are all. -/
theorem tickFeeds_calm {fault : BitVec 16} {s : State} (h : (s.feeds.sampleAll fault).tripping = []) :
    s.tickFeeds fault = { s with feeds := s.feeds.sampleAll fault } := by
  simp only [State.tickFeeds, h, List.foldl_nil]

theorem sampleAll_feed (fault : BitVec 16) (fc : FeedControl) (f : FeedIx) :
    (fc.sampleAll fault).feed[f] = ((fc.feed[f]).sample (fault.getLsbD f.val)).advance :=
  Vector.getElem_ofFn f.isLt

/-- A feed whose fault is neither accepted nor sampled does not trip, and its timers count on. -/
theorem sample_advance_calm {x : FeedRecord} (h : x.faultActive = false) :
    (x.sample true).advance =
      { x with
        faultDiffering := false
        timer := if x.state = .softstart ∨ x.state = .tripped then min (x.timer + 1) 65535 else x.timer
        proving := if x.state = .on then min (x.proving + 1) 65535 else x.proving } := by
  have sampled : x.sample true = { x with faultDiffering := false } := by simp [FeedRecord.sample, h]
  rw [sampled]
  cases hs : x.state <;> simp [FeedRecord.advance, FeedRecord.trips, h, satInc, limit16]

theorem trips_of_inactive {x : FeedRecord} (h : x.faultActive = false) : x.trips = false := by
  simp [FeedRecord.trips, h]

theorem sampleAll_tripping_calm {fault : BitVec 16} {fc : FeedControl}
    (h : ∀ f : FeedIx, fc.feed[f].faultActive = false ∧ fault.getLsbD f.val = true) :
    (fc.sampleAll fault).tripping = [] := by
  refine List.filter_eq_nil_iff.2 fun f _ => ?_
  obtain ⟨inactive, high⟩ := h f
  rw [sampleAll_feed, high, sample_advance_calm inactive]
  exact Bool.eq_false_iff.1 (trips_of_inactive inactive)

/-! ### The counting part of a tick (R1, R2, R50, R174, R181) -/

/-- Time runs to the tick, and every timer counts. -/
def State.count (s : State) : State := (s.runToTick.countSecond.onRt Runtime.countTimers).countPort

theorem tick_eq (lineOk : Bool) (fault : BitVec 16) (s : State) :
    s.tick lineOk fault = (((s.flush.count).tickFeeds fault).tickSupply lineOk).compare := rfl

@[simp] theorem countSecond_feeds (s : State) : s.countSecond.feeds = s.feeds := by
  unfold State.countSecond
  split <;> rfl

@[simp] theorem countSecond_rt (s : State) : s.countSecond.rt = s.rt := by
  unfold State.countSecond
  split <;> rfl

@[simp] theorem countSecond_port (s : State) : s.countSecond.port = s.port := by
  unfold State.countSecond
  split <;> rfl

@[simp] theorem countSecond_pending (s : State) : s.countSecond.pending = s.pending := by
  unfold State.countSecond
  split <;> rfl

theorem count_monitor (s : State) : s.count.monitor = s.monitor := by simp [State.count]

theorem count_feeds (s : State) : s.count.feeds = s.feeds := by
  simp [State.count, State.countPort, State.runToTick]

theorem count_pending (s : State) : s.count.pending = s.pending := by
  simp [State.count, State.countPort, State.runToTick]

theorem count_due (s : State) : s.count.due = if s.clock.seconds + 1 = 4000 then [.uptimeSecond] else [] := by
  unfold State.count State.countSecond
  split
  · next h => exact (if_pos h).symm
  · next h => exact (if_neg h).symm

theorem count_clock (s : State) :
    s.count.clock =
      { prescaler := 0, seconds := if s.clock.seconds + 1 = 4000 then s.clock.seconds else s.clock.seconds + 1
        uptime := s.clock.uptime } := by
  unfold State.count State.countSecond
  split
  · next h => rw [if_pos (show s.clock.seconds + 1 = 4000 from h)]; rfl
  · next h => rw [if_neg (show ¬ s.clock.seconds + 1 = 4000 from h)]; rfl

theorem count_rt (s : State) : s.count.rt = (s.elapse (4096 - s.clock.prescaler)).rt.countTimers := by
  simp [State.count, State.countPort, State.runToTick]

theorem countTimers_extends (r : Runtime) : r.Extends r.countTimers := by
  unfold Runtime.countTimers
  exact (Runtime.Extends.refl r).same rfl rfl rfl rfl

theorem count_extends (s : State) : s.rt.Extends s.count.rt := by
  rw [count_rt]
  have elapsed : s.rt.Extends (s.elapse (4096 - s.clock.prescaler)).rt := (Runtime.Extends.refl s.rt).same rfl rfl rfl rfl
  exact elapsed.trans (countTimers_extends _)

theorem count_line (s : State) (k : LineIx) : s.count.rt.lines[k] = (s.rt.lines[k]).elapse (4096 - s.clock.prescaler) := by
  rw [count_rt]
  exact Vector.getElem_map ..

theorem count_read (s : State) : s.count.rt.read = s.rt.read.map fun b => { b with timer := b.timer + 1 } := by
  rw [count_rt]
  rfl

/-- Time passing gives no unit line work and takes none away. -/
theorem elapse_busy (dt : Nat) (s : State) (u : UnitIx) : (s.elapse dt).rt.busy u = s.rt.busy u := by
  have line : (s.elapse dt).rt.lines[s.rt.units[u].config.line] = (s.rt.lines[s.rt.units[u].config.line]).elapse dt :=
    Vector.getElem_map ..
  show (((s.elapse dt).rt.lines[s.rt.units[u].config.line]).waits u
    || ((s.elapse dt).rt.lines[s.rt.units[u].config.line]).serves u) = _
  rw [line]
  rfl

theorem count_unit (s : State) (u : UnitIx) : s.count.rt.units[u] = (s.rt.units[u]).countTimers (s.rt.busy u) := by
  rw [count_rt, ← elapse_busy (4096 - s.clock.prescaler)]
  exact Vector.getElem_ofFn u.isLt

theorem countTimers_run (busy : Bool) (x : UnitRecord) : (x.countTimers busy).run = x.run := rfl

theorem count_port (s : State) :
    s.count.port = { s.port with
      sweepTimer := if s.rt.mode = .running ∧ s.port.sweepTimerOn = true ∧ s.port.sweeping = false then
          s.port.sweepTimer + 1 else s.port.sweepTimer
      write := s.port.write.map fun w => { w with timer := w.timer + 1 } } := by
  simp [State.count, State.countPort, State.runToTick, Runtime.countTimers]

/-! ### The Supply Monitor on a tick (R7 to R14) -/

/-- The Supply Monitor's timers have advanced, and its filter has become another. -/
def State.withFilter (x : SupplyFilter) (s : State) : State :=
  { s with monitor := { s.monitor.advance with filter := x } }

theorem tickSupply_none {s : State} {lineOk : Bool} {x : SupplyFilter}
    (h : s.monitor.filter.sample lineOk = (x, none)) : s.tickSupply lineOk = s.withFilter x := by
  have advanced : s.monitor.advance.filter.sample lineOk = (x, none) := h
  simp only [State.tickSupply, advanced, State.withFilter]

theorem tickSupply_some {s : State} {lineOk : Bool} {x : SupplyFilter} {rep : SupplyReport}
    (h : s.monitor.filter.sample lineOk = (x, some rep)) :
    s.tickSupply lineOk = (s.withFilter x).supplyChange rep := by
  have advanced : s.monitor.advance.filter.sample lineOk = (x, some rep) := h
  simp only [State.tickSupply, advanced, State.withFilter]

/-- What the monitor becomes at an accepted change, at an uptime (R7 to R14). -/
def Monitor.changed (now : Word) (rep : SupplyReport) (m : Monitor) : Monitor :=
  match rep, m.supply with
  | .initial true, .startup => m.toUp
  | .initial false, .startup => m.beginAbsent now
  | .loss, .up => m.lose
  | .back, .pending => m.flicker
  | .back, .gap => m.settle
  | .loss, .settling => m.merge
  | _, _ => m

theorem supplyChange_monitor (s : State) (rep : SupplyReport) :
    (s.supplyChange rep).monitor = s.monitor.changed s.uptimeNow rep := by
  unfold State.supplyChange Monitor.changed
  split <;> simp_all
  split <;> simp

/-- What no accepted change touches. -/
theorem supplyChange_frame (s : State) (rep : SupplyReport) :
    (s.supplyChange rep).clock = s.clock ∧ (s.supplyChange rep).due = s.due
      ∧ (s.supplyChange rep).pending = s.pending ∧ (s.supplyChange rep).port = s.port := by
  unfold State.supplyChange State.considerAdmission
  split
  · simp
  · simp [handGap_clock, handGap_due, handGap_pending, handGap_port]
  · simp
  · dsimp only
    split <;> simp
  · simp
  · simp
  · simp

theorem supplyChange_port (s : State) (rep : SupplyReport) : (s.supplyChange rep).port = s.port := by
  obtain ⟨-, -, -, port⟩ := supplyChange_frame s rep
  exact port

theorem supplyChange_extends (s : State) (rep : SupplyReport) : s.rt.Extends (s.supplyChange rep).rt := by
  unfold State.supplyChange State.considerAdmission
  split
  · exact handFeeds_extends _ _ (.refl _)
  · exact handGap_extends _
  · exact .refl _
  · dsimp only
    split <;> simp [Runtime.Extends.refl]
  · exact .refl _
  · exact .refl _
  · exact .refl _

theorem tickSupply_frame (lineOk : Bool) (s : State) :
    (s.tickSupply lineOk).clock = s.clock ∧ (s.tickSupply lineOk).due = s.due
      ∧ (s.tickSupply lineOk).pending = s.pending ∧ (s.tickSupply lineOk).port = s.port := by
  unfold State.tickSupply
  dsimp only
  split
  · exact supplyChange_frame _ _
  · exact ⟨rfl, rfl, rfl, rfl⟩

theorem tickSupply_extends (lineOk : Bool) (s : State) : s.rt.Extends (s.tickSupply lineOk).rt := by
  unfold State.tickSupply
  dsimp only
  split
  · exact supplyChange_extends { s with monitor := { s.monitor.advance with filter := _ } } _
  · exact .refl _

end Machine

end Sys2Proof

namespace Sys2Proof

namespace Machine

/-! ### How a tick moves the supply state (R4 to R14) -/

/-- The state in which the Supply Monitor meets a tick with nothing left due: time has run, the timers have counted and
the feeds have acted. -/
def State.atSupply (fault : BitVec 16) (s : State) : State := s.count.tickFeeds fault

theorem tick_of_nothing_due {s : State} (h : s.due = []) (lineOk : Bool) (fault : BitVec 16) :
    s.tick lineOk fault = ((s.atSupply fault).tickSupply lineOk).compare := by
  rw [tick_eq, flush_nil s h]
  rfl

theorem atSupply_monitor (fault : BitVec 16) (s : State) : (s.atSupply fault).monitor = s.monitor := by
  rw [State.atSupply, tickFeeds_monitor, count_monitor]

theorem atSupply_clock (fault : BitVec 16) (s : State) : (s.atSupply fault).clock = s.count.clock :=
  tickFeeds_clock fault _

theorem atSupply_due (fault : BitVec 16) (s : State) : (s.atSupply fault).due = s.count.due := tickFeeds_due fault _

theorem atSupply_extends (fault : BitVec 16) (s : State) : s.rt.Extends (s.atSupply fault).rt :=
  (count_extends s).trans (tickFeeds_extends fault _)

theorem atSupply_calm {fault : BitVec 16} {s : State} (h : (s.feeds.sampleAll fault).tripping = []) :
    s.atSupply fault = { s.count with feeds := s.feeds.sampleAll fault } := by
  rw [State.atSupply, tickFeeds_calm (by rw [count_feeds]; exact h), count_feeds]

/-- An event of the tick takes the uptime after a second that ends on it (R2, log 5). -/
theorem atSupply_uptimeNow (fault : BitVec 16) (s : State) :
    (s.atSupply fault).uptimeNow = if s.clock.seconds + 1 = 4000 then s.clock.uptime + 1 else s.clock.uptime := by
  unfold State.uptimeNow
  rw [atSupply_due, atSupply_clock, count_due, count_clock]
  split <;> simp

/-- A tick on which the filter accepts nothing. -/
theorem tick_steady {s : State} (h : s.due = []) {lineOk : Bool} {x : SupplyFilter}
    (sampled : s.monitor.filter.sample lineOk = (x, none)) (fault : BitVec 16) :
    s.tick lineOk fault = ((s.atSupply fault).withFilter x).compare := by
  rw [tick_of_nothing_due h, tickSupply_none (x := x) (by rw [atSupply_monitor]; exact sampled)]

/-- A tick on which the filter accepts a change. -/
theorem tick_change {s : State} (h : s.due = []) {lineOk : Bool} {x : SupplyFilter} {rep : SupplyReport}
    (sampled : s.monitor.filter.sample lineOk = (x, some rep)) (fault : BitVec 16) :
    s.tick lineOk fault = (((s.atSupply fault).withFilter x).supplyChange rep).compare := by
  rw [tick_of_nothing_due h, tickSupply_some (x := x) (rep := rep) (by rw [atSupply_monitor]; exact sampled)]

theorem withFilter_monitor (x : SupplyFilter) (fault : BitVec 16) (s : State) :
    ((s.atSupply fault).withFilter x).monitor = { s.monitor.advance with filter := x } := by
  rw [State.withFilter, atSupply_monitor]

theorem withFilter_feeds (x : SupplyFilter) (s : State) : (s.withFilter x).feeds = s.feeds := rfl

theorem withFilter_port (x : SupplyFilter) (s : State) : (s.withFilter x).port = s.port := rfl

theorem withFilter_rt (x : SupplyFilter) (s : State) : (s.withFilter x).rt = s.rt := rfl

theorem compare_clock (s : State) : s.compare.clock = s.clock := rfl

theorem compare_pending (s : State) : s.compare.pending = s.pending := rfl

theorem compare_port (s : State) : s.compare.port = s.port := rfl

theorem compare_rt (s : State) : s.compare.rt = s.rt := rfl

theorem compare_feeds (s : State) : s.compare.feeds = s.feeds := rfl

theorem withFilter_uptimeNow (x : SupplyFilter) (s : State) : (s.withFilter x).uptimeNow = s.uptimeNow := rfl

/-- The monitor after a tick with an accepted change, by the rule for the change (R7). -/
theorem tick_change_monitor {s : State} (h : s.due = []) {lineOk : Bool} {x : SupplyFilter} {rep : SupplyReport}
    (sampled : s.monitor.filter.sample lineOk = (x, some rep)) (fault : BitVec 16) :
    (s.tick lineOk fault).monitor
      = Monitor.changed (s.atSupply fault).uptimeNow rep { s.monitor.advance with filter := x } := by
  rw [tick_change h sampled, compare_monitor, supplyChange_monitor, withFilter_monitor, withFilter_uptimeNow]

theorem advance_eq (m : Monitor) :
    m.advance = { m with
      gapCounter := if m.supply = .startup ∨ m.supply = .up then m.gapCounter else min (m.gapCounter + 1) 65535
      settleTimer := if m.supply = .settling then min (m.settleTimer + 1) 65535 else m.settleTimer } := by
  cases hs : m.supply <;> simp [Monitor.advance, hs, satInc, limit16]

/-- The gap counter reaches its limit exactly where the count before would reach or pass it (R6, R13). -/
theorem satInc_eq_limit (n : Nat) : decide (min (n + 1) 65535 = limit16) = decide (65535 ≤ n + 1) := by
  unfold limit16
  exact decide_eq_decide.2 (by omega)

/-- The first accepted level is present in STARTUP: the supply is UP, and admission is considered (R11, R83). -/
theorem supplyChange_present {s : State} (h : s.monitor.supply = .startup) :
    (s.supplyChange (.initial true)).feeds = s.feeds.consider true := by
  simp only [State.supplyChange, h]
  rfl

/-- The first accepted level is absent in STARTUP (R11). -/
theorem supplyChange_absent {s : State} (h : s.monitor.supply = .startup) :
    s.supplyChange (.initial false) = State.handGap { s with monitor := s.monitor.beginAbsent s.uptimeNow } := by
  simp only [State.supplyChange, h]

theorem count_events (s : State) : s.count.port.events = s.port.events := by rw [count_port]

/-- Settles O13: the filter's table gives what is accepted, and the rule for it gives the monitor. -/
theorem tickMovesTheSupplyState : Obligations.TickMovesTheSupplyState := by
  intro lineOk fault s due
  refine ⟨s.tick lineOk fault, exec_tick lineOk fault s, fun a ha differs second => ?accepted, fun a ha same => ?steady,
    fun none startup => ?first⟩
  case accepted =>
    have sampled := SupplyFilter.sample_second_differing ha differs second
    have moved := tick_change_monitor due sampled fault
    refine ⟨?_, ?_, ?_, ?_⟩ <;> rintro hs rfl <;> rw [moved, advance_eq]
    · simp [Monitor.changed, hs, Monitor.lose]
    · simp [Monitor.changed, hs, Monitor.flicker, Monitor.toUp, satInc, limit16]
    · simp [Monitor.changed, hs, Monitor.settle, satInc_eq_limit]
    · simp [Monitor.changed, hs, Monitor.merge]
  case steady =>
    have sampled : s.monitor.filter.sample lineOk
        = ({ s.monitor.filter with differing := decide (lineOk ≠ a) }, Option.none) := by
      by_cases e : lineOk = a
      · rw [e, SupplyFilter.sample_same ha]
        simp
      · rw [SupplyFilter.sample_first_differing ha e (same.resolve_left e)]
        simp [e]
    rw [tick_steady due sampled, compare_monitor, withFilter_monitor, advance_eq]
  case first =>
    refine ⟨fun other => ?candidate, ?present, ?absent⟩
    case candidate =>
      rw [tick_steady due (SupplyFilter.sample_new_candidate none other), compare_monitor, withFilter_monitor, advance_eq]
      simp [startup]
    case present =>
      rintro candidate rfl
      have sampled := SupplyFilter.sample_candidate none candidate
      refine ⟨?_, fun calm => ?_⟩
      · rw [tick_change_monitor due sampled, advance_eq]
        simp [Monitor.changed, startup, Monitor.toUp]
      · rw [tick_change due sampled]
        refine ⟨?_, ?_⟩
        · rw [compare_feeds, supplyChange_present (by rw [withFilter_monitor]; exact startup), withFilter_feeds,
            atSupply_calm calm]
        · rw [compare_port, supplyChange_port, withFilter_port, atSupply_calm calm]
          exact count_events s
    case absent =>
      rintro candidate rfl
      have sampled := SupplyFilter.sample_candidate none candidate
      refine ⟨?_, ?_⟩
      · rw [tick_change_monitor due sampled, advance_eq, atSupply_uptimeNow]
        simp [Monitor.changed, startup, Monitor.beginAbsent, Monitor.declare, limit16]
      · rw [tick_change due sampled, supplyChange_absent (by rw [withFilter_monitor]; exact startup)]
        refine ⟨?_, fun calm u => ?_, fun k => ?_, fun f => ?_⟩
        · rw [compare_port, handGap_port, withFilter_port, State.atSupply, tickFeeds_gapEvent, count_events]
        · rw [compare_rt, handGap_unit, ridden_run, withFilter_rt, atSupply_calm calm, count_unit, countTimers_run]
        · rw [compare_rt, handGap_line]
          exact stopForGap_stopped _
        · rw [compare_feeds, handGap_feeds]
          exact declareGap_not_softstart _ f

end Machine

end Sys2Proof

namespace Sys2Proof

namespace Machine

/-! ### What a tick's comparisons find due (R10, R12, R15, R50, R85, R89, R90, R174, R181) -/

theorem mem_dueIf (c : Bool) (d e : Due) : d ∈ dueIf c e ↔ c = true ∧ d = e := by
  cases c <;> simp [dueIf]

theorem reached_iff (t : Option Nat) (n : Nat) : reached t n = true ↔ ∃ v, t = some v ∧ n ≤ v := by
  cases t <;> simp [reached]

theorem readLate_iff (s : State) : s.readLate = true ↔ ∃ b, s.rt.read = some b ∧ b.live = true ∧ 4 ≤ b.timer := by
  unfold State.readLate completionLimit
  cases s.rt.read <;> simp

theorem writeLate_iff (s : State) : s.writeLate = true ↔ ∃ w, s.port.write = some w ∧ w.live = true ∧ 4 ≤ w.timer := by
  unfold State.writeLate completionLimit
  cases s.port.write <;> simp

theorem mainDue_iff (x : FeedRecord) :
    x.mainDue = true ↔ x.state = .softstart ∧ x.mainOn = false ∧ x.timer = x.precharge := by simp [FeedRecord.mainDue]

theorem onDue_iff (x : FeedRecord) : x.onDue = true ↔ x.state = .softstart ∧ x.timer = x.settle := by
  simp [FeedRecord.onDue]

theorem cooldownDue_iff (x : FeedRecord) :
    x.cooldownDue = true ↔ x.state = .tripped ∧ x.cooldown ≤ x.timer ∧ x.faultActive = false := by
  simp [FeedRecord.cooldownDue]

theorem provingDue_iff (n : Nat) (x : FeedRecord) :
    x.provingDue n = true ↔ x.state = .on ∧ n ≤ x.proving ∧ x.tripCount ≠ 0 := by simp [FeedRecord.provingDue]

theorem contacting_iff (x : UnitRecord) : x.contacting = true ↔ x.run = .probing ∨ x.run = .attending := by
  simp [UnitRecord.contacting]

theorem serving_iff (x : UnitRecord) : x.serving = true ↔ x.run = .running ∨ x.run = .held := by
  simp [UnitRecord.serving]

/-- The comparison of the supply state finds due the step of that state alone. -/
theorem dueStep_iff (x : Settings) (m : Monitor) (d : Due) :
    m.dueStep x = some d ↔
      m.supply = .pending ∧ x.minGap ≤ m.gapCounter ∧ d = .gapDeclared
        ∨ m.supply = .gap ∧ (m.shed = false ∧ x.shedTime ≤ m.gapCounter) ∧ d = .shedCommand
        ∨ m.supply = .settling ∧ x.settle ≤ m.settleTimer ∧ d = .settlingEnd := by
  unfold Monitor.dueStep
  cases hs : m.supply <;> dsimp only
  case startup | up => simp
  all_goals split <;> simp [*, eq_comm (b := d)]

/-- The steps due after a tick's comparisons: those due before, and those that each block's comparison finds. -/
theorem mem_compare_due (s : State) (d : Due) :
    d ∈ s.compare.due ↔
      d ∈ s.due ∨ s.monitor.dueStep s.rt.settings = some d ∨ (∃ f, d ∈ s.dueFeed f) ∨ (∃ u, d ∈ s.dueUnit u)
        ∨ s.sweepDue = true ∧ d = .sweepTimerExpiry ∨ s.readLate = true ∧ d = .completionTimeout .read
        ∨ s.writeLate = true ∧ d = .completionTimeout .write := by
  simp only [State.compare, List.mem_append, Option.mem_toList, List.mem_flatMap, List.mem_finRange, true_and, mem_dueIf, or_assoc]

theorem mem_dueFeed (s : State) (f : FeedIx) (d : Due) :
    d ∈ s.dueFeed f ↔
      (s.feeds.feed[f]).mainDue = true ∧ d = .mainSwitchOn f ∨ (s.feeds.feed[f]).onDue = true ∧ d = .feedReachedOn f
        ∨ (s.feeds.feed[f]).cooldownDue = true ∧ d = .cooldownEnd f
        ∨ (s.feeds.feed[f]).provingDue s.rt.settings.provingTime = true ∧ d = .provingTimeReached f := by
  simp only [State.dueFeed, List.mem_append, mem_dueIf, or_assoc]

theorem mem_dueUnit (s : State) (u : UnitIx) (d : Due) :
    d ∈ s.dueUnit u ↔
      ((s.rt.units[u]).contacting = true ∧ s.rt.units[u].bootTimer = some s.rt.units[u].config.bootTimeout)
          ∧ d = .bootTimeout u
        ∨ ((s.rt.units[u]).contacting = true ∧ reached s.rt.units[u].attendTimer s.rt.settings.attendInterval = true)
          ∧ d = .attendTimerExpiry u
        ∨ ((s.rt.units[u]).serving = true ∧ s.rt.busy u = false
            ∧ reached s.rt.units[u].pollTimer s.rt.settings.pollInterval = true)
          ∧ d = .pollTimerExpiry u := by
  simp only [State.dueUnit, List.mem_append, mem_dueIf, Bool.and_eq_true, decide_eq_true_eq, Bool.not_eq_true',
    or_assoc, and_assoc, and_comm (a := reached s.rt.units[u].pollTimer s.rt.settings.pollInterval = true)]

section Kinds

variable {s : State} (before : ∀ d, d ≠ .uptimeSecond → d ∉ s.due)

include before

theorem gapDeclared_due :
    Due.gapDeclared ∈ s.compare.due ↔
      s.monitor.supply = .pending ∧ s.rt.settings.minGap ≤ s.monitor.gapCounter := by
  simp [mem_compare_due, before, dueStep_iff, mem_dueFeed, mem_dueUnit]

theorem shedCommand_due :
    Due.shedCommand ∈ s.compare.due ↔
      s.monitor.supply = .gap ∧ s.monitor.shed = false ∧ s.rt.settings.shedTime ≤ s.monitor.gapCounter := by
  simp [mem_compare_due, before, dueStep_iff, mem_dueFeed, mem_dueUnit]

theorem settlingEnd_due :
    Due.settlingEnd ∈ s.compare.due ↔
      s.monitor.supply = .settling ∧ s.rt.settings.settle ≤ s.monitor.settleTimer := by
  simp [mem_compare_due, before, dueStep_iff, mem_dueFeed, mem_dueUnit]

theorem feedSteps_due (f : FeedIx) :
    (Due.mainSwitchOn f ∈ s.compare.due ↔ (s.feeds.feed[f]).mainDue = true)
      ∧ (Due.feedReachedOn f ∈ s.compare.due ↔ (s.feeds.feed[f]).onDue = true)
      ∧ (Due.cooldownEnd f ∈ s.compare.due ↔ (s.feeds.feed[f]).cooldownDue = true)
      ∧ (Due.provingTimeReached f ∈ s.compare.due
          ↔ (s.feeds.feed[f]).provingDue s.rt.settings.provingTime = true) := by
  simp [mem_compare_due, before, dueStep_iff, mem_dueFeed, mem_dueUnit]

theorem bootTimeout_due (u : UnitIx) :
    Due.bootTimeout u ∈ s.compare.due ↔
      (s.rt.units[u].run = .probing ∨ s.rt.units[u].run = .attending)
        ∧ s.rt.units[u].bootTimer = some s.rt.units[u].config.bootTimeout := by
  simp [mem_compare_due, before, dueStep_iff, mem_dueFeed, mem_dueUnit, contacting_iff]

theorem attendTimerExpiry_due (u : UnitIx) :
    Due.attendTimerExpiry u ∈ s.compare.due ↔
      (s.rt.units[u].run = .probing ∨ s.rt.units[u].run = .attending)
        ∧ ∃ n, s.rt.units[u].attendTimer = some n ∧ s.rt.settings.attendInterval ≤ n := by
  simp [mem_compare_due, before, dueStep_iff, mem_dueFeed, mem_dueUnit, contacting_iff, reached_iff]

theorem pollTimerExpiry_due (u : UnitIx) :
    Due.pollTimerExpiry u ∈ s.compare.due ↔
      (s.rt.units[u].run = .running ∨ s.rt.units[u].run = .held) ∧ s.rt.busy u = false
        ∧ ∃ n, s.rt.units[u].pollTimer = some n ∧ s.rt.settings.pollInterval ≤ n := by
  simp [mem_compare_due, before, dueStep_iff, mem_dueFeed, mem_dueUnit, serving_iff, reached_iff]

theorem sweepTimerExpiry_due :
    Due.sweepTimerExpiry ∈ s.compare.due ↔
      s.rt.mode = .running ∧ s.port.sweepTimerOn = true ∧ s.port.sweeping = false
        ∧ s.rt.settings.sweepInterval ≤ s.port.sweepTimer := by
  simp [mem_compare_due, before, dueStep_iff, mem_dueFeed, mem_dueUnit, State.sweepDue, and_assoc]

theorem completionTimeout_read_due :
    Due.completionTimeout .read ∈ s.compare.due ↔ ∃ b, s.rt.read = some b ∧ b.live = true ∧ 4 ≤ b.timer := by
  simp [mem_compare_due, before, dueStep_iff, mem_dueFeed, mem_dueUnit, readLate_iff]

theorem completionTimeout_write_due :
    Due.completionTimeout .write ∈ s.compare.due ↔ ∃ w, s.port.write = some w ∧ w.live = true ∧ 4 ≤ w.timer := by
  simp [mem_compare_due, before, dueStep_iff, mem_dueFeed, mem_dueUnit, writeLate_iff]

end Kinds

/-- The end of a second is no comparison's: it is due where the divider found it (R2). -/
theorem uptimeSecond_due (s : State) : Due.uptimeSecond ∈ s.compare.due ↔ Due.uptimeSecond ∈ s.due := by
  simp [mem_compare_due, dueStep_iff, mem_dueFeed, mem_dueUnit]

/-! ### A tick counts time (R1, R2) -/

theorem endSecond_eq {s : State} (h : s.clock.seconds + 1 = Config.ticksPerSecond) :
    s.endSecond = { s with clock := { s.clock with seconds := 0, uptime := s.clock.uptime + 1 } } := if_pos h

/-- The uptime goes up by one and passes from its last value to 0 (R2). -/
theorem uptime_succ (x : Word) : x + 1 = if x = 4294967295#32 then 0 else BitVec.ofNat 32 (x.toNat + 1) := by
  split
  · next h => rw [h]; rfl
  · apply BitVec.eq_of_toNat_eq
    simp [BitVec.toNat_add]

/-- What a tick's blocks find due before the comparisons is the end of a second, where the divider passes. -/
theorem tickSupply_due (lineOk : Bool) (fault : BitVec 16) (s : State) :
    ((s.atSupply fault).tickSupply lineOk).due = if s.clock.seconds + 1 = 4000 then [.uptimeSecond] else [] := by
  obtain ⟨-, due, -⟩ := tickSupply_frame lineOk (s.atSupply fault)
  rw [due, atSupply_due, count_due]

theorem not_due_before_comparisons (lineOk : Bool) (fault : BitVec 16) (s : State) :
    ∀ d, d ≠ Due.uptimeSecond → d ∉ ((s.atSupply fault).tickSupply lineOk).due := by
  intro d other
  rw [tickSupply_due]
  split <;> simp [other]

/-- A tick ends with the comparisons, met with nothing due but the end of a second. -/
theorem tick_compares (lineOk : Bool) (fault : BitVec 16) (s : State) :
    ∃ x : State, (∀ d, d ≠ Due.uptimeSecond → d ∉ x.due) ∧ s.tick lineOk fault = x.compare :=
  ⟨_, not_due_before_comparisons lineOk fault s.flush, tick_eq lineOk fault s⟩

/-- What a tick counts on every block, with nothing left due: the clock, and what no block of the tick changes. -/
theorem tick_counts {s : State} (h : s.due = []) (lineOk : Bool) (fault : BitVec 16) :
    (s.tick lineOk fault).clock = s.count.clock ∧ (s.tick lineOk fault).pending = s.pending
      ∧ s.rt.Extends (s.tick lineOk fault).rt ∧ (s.tick lineOk fault).port.change = s.port.change
      ∧ (Due.uptimeSecond ∈ (s.tick lineOk fault).due ↔ s.clock.seconds + 1 = 4000) := by
  obtain ⟨clock, -, pending, port⟩ := tickSupply_frame lineOk (s.atSupply fault)
  rw [tick_of_nothing_due h]
  refine ⟨?_, ?_, ?_, ?_, ?_⟩
  · rw [compare_clock, clock, atSupply_clock]
  · rw [compare_pending, pending, State.atSupply, tickFeeds_pending, count_pending]
  · rw [compare_rt]
    exact (atSupply_extends fault s).trans (tickSupply_extends lineOk _)
  · rw [compare_port, port, State.atSupply, tickFeeds_change, count_port]
  · rw [uptimeSecond_due, tickSupply_due]
    split <;> simp [*]

/-- A calm tick, on which LINE_OK is as accepted and no fault is accepted or sampled, does nothing but count. -/
theorem tick_calm {s : State} (h : s.due = []) {lineOk : Bool} (steady : s.monitor.filter.accepted = some lineOk)
    {fault : BitVec 16} (calm : ∀ f : FeedIx, s.feeds.feed[f].faultActive = false ∧ fault.getLsbD f.val = true) :
    (s.tick lineOk fault).feeds = s.feeds.sampleAll fault ∧ (s.tick lineOk fault).rt = s.count.rt
      ∧ (s.tick lineOk fault).port = s.count.port := by
  rw [tick_steady h (SupplyFilter.sample_same steady), compare_feeds, compare_rt, compare_port, withFilter_feeds,
    withFilter_rt, withFilter_port, atSupply_calm (sampleAll_tripping_calm calm)]
  exact ⟨rfl, rfl, rfl⟩

/-- Settles O11: the counts of a tick block by block, its comparisons kind by kind, and the step of a second's end. -/
theorem ticksCountTime : Obligations.TicksCountTime := by
  refine ⟨fun lineOk fault s due => ?counts, fun lineOk fault s => ?comparisons, fun s due last => ?second⟩
  case counts =>
    obtain ⟨clock, pending, kept, change, second⟩ := tick_counts due lineOk fault
    refine ⟨s.tick lineOk fault, exec_tick lineOk fault s, ?_, ?_, ?_, pending, kept.mode, kept.settings, kept.directory,
      change, fun steady calm => ?_⟩
    · rw [clock, count_clock]
    · rw [clock, count_clock]
    · rw [clock, count_clock, second]
      split <;> simp [*]
    · obtain ⟨feeds, rt, port⟩ := tick_calm due steady calm
      rw [feeds, rt, port]
      refine ⟨fun f => ?_, rfl, fun u => count_unit s u, count_line s, count_read s, count_port s⟩
      obtain ⟨inactive, high⟩ := calm f
      rw [sampleAll_feed, high]
      exact sample_advance_calm inactive
  case comparisons =>
    obtain ⟨x, before, ticked⟩ := tick_compares lineOk fault s
    refine ⟨x.compare, ticked ▸ exec_tick lineOk fault s, gapDeclared_due before, shedCommand_due before,
      settlingEnd_due before, fun f => ?_, fun u => ?_, sweepTimerExpiry_due before, completionTimeout_read_due before,
      completionTimeout_write_due before⟩
    · obtain ⟨main, on, cooldown, proving⟩ := feedSteps_due before f
      exact ⟨main.trans (mainDue_iff _), on.trans (onDue_iff _), cooldown.trans (cooldownDue_iff _),
        proving.trans (provingDue_iff _ _)⟩
    · exact ⟨bootTimeout_due before u, attendTimerExpiry_due before u, pollTimerExpiry_due before u⟩
  case second =>
    show Host.Outcome.next (s.takeDue .uptimeSecond) = _
    rw [takeDue_eq, if_pos due]
    rw [← uptime_succ]
    exact congrArg Host.Outcome.next (endSecond_eq (congrArg (· + 1) last))

end Machine

end Sys2Proof

namespace Sys2Proof

namespace Machine

/-! ### A unit's turn: what it leaves of the other units, of the lines and of the marks -/

theorem UnitRecord.KeptFrom.field {α : Type} {x y : UnitRecord} (h : x.KeptFrom y) (p : UnitRecord → α)
    (hp : ∀ x a b, p { x with loadStep := a, heldWork := b } = p x) : p y = p x := by
  rw [show y = _ from h]
  exact hp _ _ _

/-- `r` comes from `r0` by what is done for unit `u`: the other units' records are kept but for their load steps and held
work, a stopped line stays stopped, and the checks of every latch come out as before. -/
structure Runtime.TurnOf (u : UnitIx) (r0 r : Runtime) : Prop where
  others : ∀ v, v ≠ u → (r0.units[v]).KeptFrom r.units[v]
  stopped : ∀ k : LineIx, r0.lines[k].state = .stopped → r.lines[k].state = .stopped
  latchable : ∀ i kind, r.latchable i kind = r0.latchable i kind

theorem Runtime.TurnOf.refl (u : UnitIx) (r : Runtime) : r.TurnOf u r :=
  ⟨fun _ _ => .refl _, fun _ h => h, fun _ _ => rfl⟩

theorem Runtime.TurnOf.trans {u : UnitIx} {a b c : Runtime} (h : a.TurnOf u b) (h' : b.TurnOf u c) : a.TurnOf u c :=
  ⟨fun v ne => (h.others v ne).trans (h'.others v ne), fun k e => h'.stopped k (h.stopped k e),
    fun i kind => (h'.latchable i kind).trans (h.latchable i kind)⟩

/-- A change of nothing that a turn speaks of. -/
theorem Runtime.TurnOf.same {u : UnitIx} {r0 r r' : Runtime} (h : r0.TurnOf u r) (hu : r'.units = r.units)
    (hl : r'.lines = r.lines) (hd : r'.directory = r.directory) (hs : r'.suspect = r.suspect) : r0.TurnOf u r' := by
  refine ⟨hu ▸ h.others, hl ▸ h.stopped, fun i kind => ?_⟩
  rw [← h.latchable i kind, Runtime.latchable, Runtime.latchable, hd, hs]

section Turn

variable {u : UnitIx} {r0 r : Runtime}

theorem enqueue_turn (i : Item) (h : r0.TurnOf u r) : r0.TurnOf u (r.enqueue i) :=
  h.same (by simp) (by simp) (by simp) (by simp)

/-- The unit's own record may change at will. -/
theorem updUnit_turn (f : UnitRecord → UnitRecord) (h : r0.TurnOf u r) : r0.TurnOf u (r.updUnit u f) := by
  refine ⟨fun v ne => ?_, fun k e => ?_, fun i kind => ?_⟩
  · have apart : u.val ≠ v.val := fun e => ne (Fin.ext e.symm)
    have same : (r.updUnit u f).units[v] = r.units[v] := by simp [apart]
    exact same ▸ h.others v ne
  · rw [Runtime.updUnit_lines]
    exact h.stopped k e
  · rw [← h.latchable i kind, Runtime.latchable, Runtime.latchable, Runtime.updUnit_directory, Runtime.updUnit_suspect]

/-- A unit's load step and held work may change at will. -/
theorem updUnit_kept_turn (v : UnitIx) (f : UnitRecord → UnitRecord) (hf : ∀ x : UnitRecord, x.KeptFrom (f x))
    (h : r0.TurnOf u r) : r0.TurnOf u (r.updUnit v f) := by
  have kept := updUnit_keeps v f hf (.refl r)
  refine ⟨fun w ne => (h.others w ne).trans (kept w), fun k e => ?_, fun i kind => ?_⟩
  · rw [Runtime.updUnit_lines]
    exact h.stopped k e
  · rw [← h.latchable i kind, Runtime.latchable, Runtime.latchable, Runtime.updUnit_directory, Runtime.updUnit_suspect]

/-- A change of a line that does not take it out of STOPPED. -/
theorem updLine_turn (k : LineIx) (f : LineRecord → LineRecord) (hf : ∀ l, l.state = .stopped → (f l).state = .stopped)
    (h : r0.TurnOf u r) : r0.TurnOf u (r.updLine k f) := by
  refine ⟨fun v ne => ?_, fun j e => ?_, fun i kind => ?_⟩
  · rw [Runtime.updLine_units]
    exact h.others v ne
  · have before := h.stopped j e
    rw [Runtime.updLine_lines]
    by_cases same : j = k
    · subst same
      simpa using hf _ before
    · have apart : k.val ≠ j.val := fun e => same (Fin.ext e.symm)
      simpa [apart] using before
  · rw [← h.latchable i kind, Runtime.latchable, Runtime.latchable, Runtime.updLine_directory, Runtime.updLine_suspect]

theorem foldl_turn {α : Type} (f : Runtime → α → Runtime) (hf : ∀ r a, r0.TurnOf u r → r0.TurnOf u (f r a)) (l : List α) :
    ∀ {r : Runtime}, r0.TurnOf u r → r0.TurnOf u (l.foldl f r) := by
  induction l with
  | nil => exact fun h => h
  | cons a l ih => exact fun h => ih (hf _ _ h)

theorem abandon_stopped (l : LineRecord) (h : l.state = .stopped) : l.abandon.state = .stopped := by
  simp [LineRecord.abandon, h]

theorem list_state (v : UnitIx) (w : Work) (l : LineRecord) : (l.list v w).state = l.state := by
  unfold LineRecord.list
  split <;> rfl

theorem post_turn (v : UnitIx) (w : Work) (h : r0.TurnOf u r) : r0.TurnOf u (r.post v w) := by
  unfold Runtime.post
  split
  · exact updUnit_kept_turn _ _ (fun _ => rfl) h
  · exact updLine_turn _ _ (fun l e => (list_state v w l).trans e) h

theorem freeSlot_turn (k : LineIx) (h : r0.TurnOf u r) : r0.TurnOf u (r.freeSlot k) := by
  unfold Runtime.freeSlot Runtime.eachUnit
  refine foldl_turn _ (fun r v h => ?_) _ ((updLine_turn k LineRecord.clearSlot (fun _ e => e) h).same rfl rfl rfl rfl)
  dsimp only
  split
  · exact post_turn _ _ (updUnit_kept_turn _ _ (fun _ => rfl) h)
  · exact h

theorem dissolve_turn (k : LineIx) (h : r0.TurnOf u r) : r0.TurnOf u (r.dissolve k) := by
  unfold Runtime.dissolve
  split
  · exact h
  · refine freeSlot_turn _ (updLine_turn _ _ (fun l e => ?_) (foldl_turn _ (fun r m h => ?_) _ h))
    · dsimp only
      split
      · exact abandon_stopped l e
      · exact e
    · exact updUnit_kept_turn _ _ (fun _ => rfl) h

theorem takeOffGroup_turn (k : LineIx) (v : UnitIx) (g : Group) (h : r0.TurnOf u r) :
    r0.TurnOf u (r.takeOffGroup k v g) := by
  refine updLine_turn _ _ (fun l e => ?_) (updUnit_kept_turn _ _ (fun _ => rfl) h)
  dsimp only
  split
  · exact abandon_stopped l e
  · exact e

theorem leaveGroup_turn (k : LineIx) (v : UnitIx) (h : r0.TurnOf u r) : r0.TurnOf u (r.leaveGroup k v id) := by
  have off := fun g => takeOffGroup_turn k v g h
  unfold Runtime.leaveGroup Runtime.dissolveEmpty
  (repeat' split) <;> simp only [id_eq, h, off, dissolve_turn]

theorem withdraw_turn (v : UnitIx) (h : r0.TurnOf u r) : r0.TurnOf u (r.withdraw v) := by
  have off := updLine_turn r.units[v].config.line
    (fun l => if l.serves v then (l.unlist v).abandon else l.unlist v) (fun l e => by
      split
      · exact abandon_stopped (l.unlist v) e
      · exact e) h
  have left := updUnit_kept_turn v (fun x => { x with heldWork := none, loadStep := .idle }) (fun _ => rfl)
    (leaveGroup_turn r.units[v].config.line v off)
  unfold Runtime.withdraw
  dsimp only
  split
  · exact freeSlot_turn _ left
  · exact left

theorem closeInFlight_turn (code : AnswerCode) (h : r0.TurnOf u r) : r0.TurnOf u (r.closeInFlight u code) := by
  unfold Runtime.closeInFlight Runtime.answer
  split
  · exact h
  · exact enqueue_turn _ (updUnit_turn _ (updUnit_turn _ h))

theorem failRun_turn (c : FailureCause) (h : r0.TurnOf u r) : r0.TurnOf u (r.failRun u c) := by
  have failed := updUnit_turn (fun x => { x.stopTimers with run := .failed, cause := c, probePending := false })
    (withdraw_turn u h)
  unfold Runtime.failRun
  dsimp only
  split
  · exact closeInFlight_turn _ failed
  · exact failed

end Turn

/-! ### The latch (R29, R147, R167) -/

/-- A latch's refresh of an entry's mark leaves it, where there is none or it is of the entry's edition, or clears it, where
it is of another edition and the checks of a latch allow it. -/
theorem refreshSuspect_cases (i : ImageIx) (r : Runtime) :
    (r.suspect[i] = none ∨ r.suspect[i] = some r.directory[i].edition) ∧ r.refreshSuspect i = r
      ∨ (r.suspect[i]).all (fun e => decide (e ≠ r.directory[i].edition)) = true
        ∧ (r.refreshSuspect i).suspect = r.suspect.set i none := by
  unfold Runtime.refreshSuspect
  split
  · next clear => exact Or.inl ⟨Or.inl clear, rfl⟩
  · next e marked =>
    split
    · next same => exact Or.inl ⟨Or.inr (same ▸ marked), rfl⟩
    · next other =>
      have marks : r.suspect[i] ≠ none := by rw [marked]; simp
      refine Or.inr ⟨?_, ?_⟩
      · rw [marked]
        exact decide_eq_true (fun eq => other eq.symm)
      · unfold Runtime.setSuspect
        rw [if_neg marks]
        simp

@[simp] theorem refreshSuspect_directory (i : ImageIx) (r : Runtime) :
    (r.refreshSuspect i).directory = r.directory := by
  unfold Runtime.refreshSuspect
  (repeat' split) <;> simp

/-- A latch's refresh of a mark leaves the checks of every latch as they were. -/
theorem latchable_refreshSuspect (i j : ImageIx) (kind : UnitKind) (r : Runtime) :
    (r.refreshSuspect j).latchable i kind = r.latchable i kind := by
  rcases refreshSuspect_cases j r with ⟨-, kept⟩ | ⟨allowed, cleared⟩
  · rw [kept]
  · unfold Runtime.latchable
    rw [refreshSuspect_directory, cleared]
    by_cases same : i = j
    · subst same
      rw [allowed]
      simp
    · have apart : j.val ≠ i.val := fun e => same (Fin.ext e.symm)
      simp [apart]

/-- After the refresh the checks of the latch are that the entry is valid, for the kind, and has no mark. -/
theorem latchPasses_refreshSuspect (i : ImageIx) (kind : UnitKind) (r : Runtime) :
    (r.refreshSuspect i).latchPasses i kind = r.latchable i kind := by
  have marks : (r.refreshSuspect i).suspect[i].isNone
      = (r.suspect[i]).all (fun e => decide (e ≠ r.directory[i].edition)) := by
    rcases refreshSuspect_cases i r with ⟨clear | same, kept⟩ | ⟨allowed, cleared⟩
    · rw [kept, clear]
      rfl
    · rw [kept, same]
      simp
    · rw [allowed]
      simp [cleared]
  unfold Runtime.latchPasses Runtime.latchable
  rw [refreshSuspect_directory, marks, Bool.and_right_comm]

@[simp] theorem refreshSuspect_units (i : ImageIx) (r : Runtime) : (r.refreshSuspect i).units = r.units := by
  unfold Runtime.refreshSuspect
  (repeat' split) <;> simp

@[simp] theorem refreshSuspect_lines (i : ImageIx) (r : Runtime) : (r.refreshSuspect i).lines = r.lines := by
  unfold Runtime.refreshSuspect
  (repeat' split) <;> simp

theorem refreshSuspect_turn {u : UnitIx} {r0 r : Runtime} (i : ImageIx) (h : r0.TurnOf u r) :
    r0.TurnOf u (r.refreshSuspect i) := by
  refine ⟨?_, ?_, fun j kind => (latchable_refreshSuspect j i kind r).trans (h.latchable j kind)⟩
  · rw [refreshSuspect_units]
    exact h.others
  · rw [refreshSuspect_lines]
    exact h.stopped

/-- The image entry that a latch of the unit finds (R29). -/
def Runtime.foundImage (u : UnitIx) (r : Runtime) : LatchedImage :=
  latchedImage r.units[u].config.image r.directory[r.units[u].config.image]

/-- What a latch finds rests on the unit's configuration and on the directory copy. -/
theorem foundImage_congr {u : UnitIx} {r r' : Runtime} (hc : r'.units[u].config = r.units[u].config)
    (hd : r'.directory = r.directory) : r'.foundImage u = r.foundImage u := by
  unfold Runtime.foundImage
  simp only [hc, hd]

/-- A latch whose checks pass takes the entry of the directory copy; one whose checks fail takes none. -/
theorem latch_eq (u : UnitIx) (r : Runtime) :
    r.latch u =
      if r.unitLatchable u then
        ((r.refreshSuspect r.units[u].config.image).updUnit u (UnitRecord.relatch (r.foundImage u)), true)
      else (r.refreshSuspect r.units[u].config.image, false) := by
  unfold Runtime.latch Runtime.unitLatchable Runtime.foundImage
  dsimp only
  rw [refreshSuspect_units, latchPasses_refreshSuspect, refreshSuspect_directory]

end Machine

end Sys2Proof

namespace Sys2Proof

namespace Machine

/-! ### What a turn makes of the unit's own record -/

/-- The record of a unit's own update. -/
theorem updUnit_unit (u : UnitIx) (f : UnitRecord → UnitRecord) (r : Runtime) : (r.updUnit u f).units[u] = f r.units[u] := by
  simp

theorem closeInFlight_unit (u : UnitIx) (code : AnswerCode) (r : Runtime) :
    (r.closeInFlight u code).units[u] = (r.units[u]).closed code := by
  simp

/-- An item handed stays while changes follow that only hand items. -/
theorem Runtime.Extends.mem {a b : Runtime} (h : a.Extends b) {i : Item} (hi : i ∈ a.queue) : i ∈ b.queue := by
  obtain ⟨l, hl⟩ := h.tail
  rw [hl]
  exact List.mem_append_left l hi

/-- What an answer to the request in flight does not write is as the failure left it (R71). -/
theorem failRun_field {α : Type} (p : UnitRecord → α) (hp : ∀ x : UnitRecord, p (x.closed .failed) = p x) (u : UnitIx)
    (c : FailureCause) (r : Runtime) :
    p (r.failRun u c).units[u]
      = p { (r.withdraw u).units[u].stopTimers with run := .failed, cause := c, probePending := false } := by
  unfold Runtime.failRun
  generalize r.withdraw u = gone
  dsimp only
  split
  · rw [closeInFlight_unit, hp, updUnit_unit]
  · rw [updUnit_unit]

theorem closed_run (code : AnswerCode) (x : UnitRecord) : (x.closed code).run = x.run := by
  unfold UnitRecord.closed
  split <;> rfl

theorem closed_cause (code : AnswerCode) (x : UnitRecord) : (x.closed code).cause = x.cause := by
  unfold UnitRecord.closed
  split <;> rfl

theorem closed_lastClass (code : AnswerCode) (x : UnitRecord) : (x.closed code).lastClass = x.lastClass := by
  unfold UnitRecord.closed
  split <;> rfl

theorem failRun_unit (u : UnitIx) (c : FailureCause) (r : Runtime) :
    (r.failRun u c).units[u].run = .failed ∧ (r.failRun u c).units[u].cause = c
      ∧ (r.failRun u c).units[u].lastClass = r.units[u].lastClass := by
  refine ⟨failRun_field _ (closed_run _) u c r, failRun_field _ (closed_cause _) u c r, ?_⟩
  rw [failRun_field _ (closed_lastClass _)]
  have kept := (withdraw_keeps u (.refl r)).field u UnitRecord.lastClass fun _ _ _ => rfl
  generalize (r.withdraw u).units[u] = gone at kept ⊢
  exact kept

theorem contact_unit (u : UnitIx) (st : RunState) (r : Runtime) :
    UnitRecord.KeptFrom { r.units[u].stopTimers with run := st, bootTimer := some 0 } (r.contact u st).units[u] := by
  unfold Runtime.contact
  have posted := post_keeps u .hello (.refl (r.updUnit u fun x => { x.stopTimers with run := st, bootTimer := some 0 })) u
  rwa [updUnit_unit] at posted

theorem check_unit (u : UnitIx) (r : Runtime) :
    UnitRecord.KeptFrom { r.units[u].stopTimers with run := .checking } (r.check u).units[u] := by
  unfold Runtime.check
  have posted := post_keeps u .status (.refl (r.updUnit u fun x => { x.stopTimers with run := .checking })) u
  rwa [updUnit_unit] at posted

/-- The record of a unit whose run starts with a latched image (R29, R52, R149, R169). -/
def UnitRecord.started (m : LatchedImage) (x : UnitRecord) : UnitRecord :=
  (x.freshRun.relatch m).startRun x.imageValid

/-- The latch finds the edition and the CRC-32 of the record (R29). -/
def LatchedImage.matchesLatch (m : LatchedImage) (x : UnitRecord) : Bool :=
  decide (m.edition = x.image.edition ∧ m.crc = x.image.crc)

theorem started_kept (m : LatchedImage) (x : UnitRecord) :
    (x.started m).image = m ∧ (x.started m).verdicts = 0 ∧ (x.started m).aloneMark = false
      ∧ (x.started m).probePending = x.probePending ∧ (x.started m).lastClass = x.lastClass
      ∧ (x.started m).run = x.run := by
  unfold UnitRecord.started UnitRecord.startRun
  split <;> exact ⟨rfl, rfl, rfl, rfl, rfl, rfl⟩

/-- A run that starts on the image as it was keeps its class; otherwise a unit that was valid becomes COLD, and one that
was not has been COLD before (R52). -/
theorem started_runClass (m : LatchedImage) {x : UnitRecord} (h : x.imageValid = false → x.runClass = .cold) :
    (x.started m).runClass = if m.matchesLatch x = true then x.runClass else .cold := by
  have relatched : (x.freshRun.relatch m).imageValid = (x.imageValid && m.matchesLatch x) := rfl
  unfold UnitRecord.started UnitRecord.startRun
  rw [relatched]
  cases hv : x.imageValid with
  | false =>
    have cold : (x.freshRun.relatch m).runClass = .cold := h hv
    simp [cold, h hv]
  | true =>
    cases hm : m.matchesLatch x with
    | true =>
      simp only [Bool.and_self, Bool.not_true, Bool.and_false, Bool.false_and, Bool.false_eq_true, if_false, if_true]
      rfl
    | false =>
      by_cases cold : (x.freshRun.relatch m).runClass = .cold
      · simp [cold]
      · simp [cold, UnitRecord.derive]

/-- The runtime in which the run of a unit goes on whose latch has passed. -/
def Runtime.started (u : UnitIx) (r : Runtime) : Runtime :=
  (((r.updUnit u UnitRecord.freshRun).refreshSuspect r.units[u].config.image).updUnit u
    (UnitRecord.relatch (r.foundImage u))).updUnit u (UnitRecord.startRun r.units[u].imageValid)

theorem unitLatchable_updUnit {f : UnitRecord → UnitRecord} (hf : ∀ x : UnitRecord, (f x).config = x.config) (u : UnitIx)
    (r : Runtime) : (r.updUnit u f).unitLatchable u = r.unitLatchable u := by
  unfold Runtime.unitLatchable Runtime.latchable
  rw [updUnit_unit, Runtime.updUnit_directory, Runtime.updUnit_suspect, hf]

theorem foundImage_updUnit {f : UnitRecord → UnitRecord} (hf : ∀ x : UnitRecord, (f x).config = x.config) (u : UnitIx)
    (r : Runtime) : (r.updUnit u f).foundImage u = r.foundImage u :=
  foundImage_congr (by rw [updUnit_unit, hf]) (by simp)

/-- A run start goes on where the latch's checks pass, and fails with IMAGE_CHANGED where they do not (R52). -/
theorem runStart_eq (u : UnitIx) (go : Runtime → Runtime) (r : Runtime) :
    r.runStart u go =
      if r.unitLatchable u then go (r.started u)
      else ((r.updUnit u UnitRecord.freshRun).refreshSuspect r.units[u].config.image).failRun u .imageChanged := by
  have config : ∀ x : UnitRecord, x.freshRun.config = x.config := fun _ => rfl
  unfold Runtime.runStart
  simp only [latch_eq, unitLatchable_updUnit config, foundImage_updUnit config, updUnit_unit, config]
  split <;> simp [Runtime.started]

theorem started_unit (u : UnitIx) (r : Runtime) :
    (r.started u).units[u] = (r.units[u]).started (r.foundImage u) := by
  unfold Runtime.started
  rw [updUnit_unit, updUnit_unit, refreshSuspect_units, updUnit_unit]
  rfl

/-- The record of a unit that proceeds from RIDING or WAIT_FEED, its run started (R56). -/
def UnitRecord.proceeded (x : UnitRecord) : UnitRecord :=
  if x.probePending then { x.stopTimers with run := .probing, bootTimer := some 0 }
  else if x.runClass = .rode then { x.stopTimers with run := .checking }
  else { x.stopTimers with run := .attending, bootTimer := some 0 }

theorem proceed_unit {u : UnitIx} {r : Runtime} (h : r.unitLatchable u = true) :
    (((r.units[u]).started (r.foundImage u)).proceeded).KeptFrom (r.proceed u).units[u] := by
  unfold Runtime.proceed UnitRecord.proceeded
  rw [runStart_eq, if_pos h, ← started_unit]
  split
  · exact contact_unit u .probing _
  · split
    · exact check_unit u _
    · exact contact_unit u .attending _

theorem proceed_fails {u : UnitIx} {r : Runtime} (h : r.unitLatchable u = false) :
    (r.proceed u).units[u].run = .failed ∧ (r.proceed u).units[u].cause = .imageChanged
      ∧ (r.proceed u).units[u].lastClass = r.units[u].lastClass := by
  have start := runStart_eq u (fun r =>
    if r.units[u].probePending then r.contact u .probing
    else if r.units[u].runClass = .rode then r.check u
    else r.contact u .attending) r
  rw [if_neg (by simp [h])] at start
  unfold Runtime.proceed
  rw [start]
  obtain ⟨run, cause, last⟩ := failRun_unit u .imageChanged
    ((r.updUnit u UnitRecord.freshRun).refreshSuspect r.units[u].config.image)
  refine ⟨run, cause, last.trans ?_⟩
  rw [refreshSuspect_units, updUnit_unit]
  rfl

/-- The record of a unit that is handed its class, where it is classified (R57). -/
def UnitRecord.classed (cls : Option GapClass) (x : UnitRecord) : UnitRecord :=
  match cls with
  | some c => { x with runClass := c, origin := .classified, lastClass := some c }
  | none => x

/-- Supply up for a unit, by its state and its feed (R57). -/
theorem supplyUp_eq (on : FeedIx → Bool) (cls : Option GapClass) (u : UnitIx) (r : Runtime) :
    r.supplyUp on cls u =
      if r.units[u].run = .riding then
        if on r.units[u].config.feed then (r.updUnit u (UnitRecord.classed cls)).proceed u
        else (r.updUnit u (UnitRecord.classed cls)).updUnit u fun x => { x with run := .waitFeed }
      else r := rfl

/-! ### A turn of supply up leaves the others alone -/

section Turn

variable {u : UnitIx} {r0 r : Runtime}

theorem contact_turn (st : RunState) (h : r0.TurnOf u r) : r0.TurnOf u (r.contact u st) :=
  post_turn u .hello (updUnit_turn _ h)

theorem check_turn (h : r0.TurnOf u r) : r0.TurnOf u (r.check u) := post_turn u .status (updUnit_turn _ h)

theorem started_turn (h : r0.TurnOf u r) : r0.TurnOf u (r.started u) :=
  updUnit_turn _ (updUnit_turn _ (refreshSuspect_turn _ (updUnit_turn _ h)))

theorem proceed_turn (h : r0.TurnOf u r) : r0.TurnOf u (r.proceed u) := by
  unfold Runtime.proceed
  rw [runStart_eq]
  split
  · split
    · exact contact_turn _ (started_turn h)
    · split
      · exact check_turn (started_turn h)
      · exact contact_turn _ (started_turn h)
  · exact failRun_turn _ (refreshSuspect_turn _ (updUnit_turn _ h))

theorem supplyUp_turn (on : FeedIx → Bool) (cls : Option GapClass) (h : r0.TurnOf u r) :
    r0.TurnOf u (r.supplyUp on cls u) := by
  rw [supplyUp_eq]
  split
  · split
    · exact proceed_turn (updUnit_turn _ h)
    · exact updUnit_turn _ (updUnit_turn _ h)
  · exact h

end Turn

/-! ### The result item of a unit that leaves RIDING (R38) -/

theorem runCode_riding (st : RunState) : byteOf (runCode st) = byteOf (runCode .riding) → st = .riding := by
  cases st <;> decide

/-- The first byte of the result part shows whether the unit is in RIDING. -/
theorem mirror_ne_of_riding {x y : UnitRecord} (hx : x.run = .riding) (hy : y.run ≠ .riding) : y.mirror ≠ x.mirror := by
  have code : ∀ z : UnitRecord, z.mirror.head? = some (byteOf (runCode z.run)) := fun _ => rfl
  intro same
  have heads := congrArg List.head? same
  rw [code, code, hx] at heads
  exact hy (runCode_riding _ (Option.some.inj heads))

section Result

variable {u : UnitIx} {r : Runtime} (riding : r.units[u].run = .riding) (running : r.mode ≠ .stopped)

include riding running

theorem updUnit_result {f : UnitRecord → UnitRecord} (h : (f r.units[u]).run ≠ .riding) :
    Item.unitResult u ∈ (r.updUnit u f).queue := by
  unfold Runtime.updUnit Runtime.setUnit
  rw [if_neg (mirror_ne_of_riding riding h)]
  exact mem_enqueue _ _ running

theorem failRun_result (c : FailureCause) : Item.unitResult u ∈ (r.failRun u c).queue := by
  have gone : (r.withdraw u).units[u].run = .riding :=
    ((withdraw_keeps u (.refl r)).field u UnitRecord.run fun _ _ _ => rfl).trans riding
  have mode : (r.withdraw u).mode ≠ .stopped := by
    rw [(withdraw_extends u (.refl r)).mode]
    exact running
  have failed := updUnit_result gone mode
    (f := fun x => { x.stopTimers with run := .failed, cause := c, probePending := false }) (by simp)
  unfold Runtime.failRun
  dsimp only
  split
  · exact (closeInFlight_extends u .failed (.refl _)).mem failed
  · exact failed

theorem contact_result {st : RunState} (h : st ≠ .riding) : Item.unitResult u ∈ (r.contact u st).queue :=
  (post_extends u .hello (.refl _)).mem (updUnit_result riding running h)

theorem check_result : Item.unitResult u ∈ (r.check u).queue :=
  (post_extends u .status (.refl _)).mem (updUnit_result riding running (by simp))

end Result

end Machine

end Sys2Proof

namespace Sys2Proof

namespace Machine

theorem started_extends (u : UnitIx) (r : Runtime) : r.Extends (r.started u) :=
  updUnit_extends _ _ (updUnit_extends _ _ (refreshSuspect_extends _ (updUnit_extends _ _ (.refl r))))

section Result

variable {u : UnitIx} {r : Runtime} (riding : r.units[u].run = .riding) (running : r.mode ≠ .stopped)

include riding running

theorem proceed_result : Item.unitResult u ∈ (r.proceed u).queue := by
  unfold Runtime.proceed
  rw [runStart_eq]
  split
  · have still : (r.started u).units[u].run = .riding := by
      obtain ⟨-, -, -, -, -, run⟩ := started_kept (r.foundImage u) r.units[u]
      rw [started_unit, run, riding]
    have mode : (r.started u).mode ≠ .stopped := by
      rw [(started_extends u r).mode]
      exact running
    split
    · exact contact_result still mode (by simp)
    · split
      · exact check_result still mode
      · exact contact_result still mode (by simp)
  · refine failRun_result ?_ ?_ .imageChanged
    · rw [refreshSuspect_units, updUnit_unit]
      exact riding
    · rw [(refreshSuspect_extends _ (updUnit_extends _ _ (.refl r))).mode]
      exact running

theorem supplyUp_result (on : FeedIx → Bool) (cls : Option GapClass) :
    Item.unitResult u ∈ (r.supplyUp on cls u).queue := by
  have still : (r.updUnit u (UnitRecord.classed cls)).units[u].run = .riding := by
    rw [updUnit_unit]
    cases cls <;> exact riding
  have mode : (r.updUnit u (UnitRecord.classed cls)).mode ≠ .stopped := by
    rw [Runtime.updUnit_mode]
    exact running
  rw [supplyUp_eq, if_pos riding]
  split
  · exact proceed_result still mode
  · exact updUnit_result still mode (by simp)

end Result

/-! ### Supply up for one unit (R57) -/

theorem classed_config (cls : Option GapClass) (x : UnitRecord) : (x.classed cls).config = x.config := by
  cases cls <;> rfl

theorem supplyUp_not_riding {u : UnitIx} {r : Runtime} (h : r.units[u].run ≠ .riding) (on : FeedIx → Bool)
    (cls : Option GapClass) : r.supplyUp on cls u = r := by
  rw [supplyUp_eq, if_neg h]

section Riding

variable {u : UnitIx} {r : Runtime} (riding : r.units[u].run = .riding)

include riding

theorem supplyUp_waits {on : FeedIx → Bool} (off : on r.units[u].config.feed = false) (cls : Option GapClass) :
    (r.supplyUp on cls u).units[u] = { (r.units[u]).classed cls with run := .waitFeed } := by
  rw [supplyUp_eq, if_pos riding, if_neg (Bool.eq_false_iff.1 off), updUnit_unit, updUnit_unit]

theorem supplyUp_fails {on : FeedIx → Bool} (feed : on r.units[u].config.feed = true) (cls : Option GapClass)
    (h : r.unitLatchable u = false) :
    (r.supplyUp on cls u).units[u].run = .failed ∧ (r.supplyUp on cls u).units[u].cause = .imageChanged
      ∧ (r.supplyUp on cls u).units[u].lastClass = ((r.units[u]).classed cls).lastClass := by
  obtain ⟨run, cause, last⟩ := proceed_fails ((unitLatchable_updUnit (classed_config cls) u r).trans h)
  rw [supplyUp_eq, if_pos riding, if_pos feed]
  rw [updUnit_unit] at last
  exact ⟨run, cause, last⟩

theorem supplyUp_proceeds {on : FeedIx → Bool} (feed : on r.units[u].config.feed = true) (cls : Option GapClass)
    (h : r.unitLatchable u = true) :
    ((((r.units[u]).classed cls).started (r.foundImage u)).proceeded).KeptFrom (r.supplyUp on cls u).units[u] := by
  have proceeds := proceed_unit ((unitLatchable_updUnit (classed_config cls) u r).trans h)
  rw [supplyUp_eq, if_pos riding, if_pos feed]
  rwa [updUnit_unit, foundImage_updUnit (classed_config cls)] at proceeds

end Riding

/-! ### Each unit takes its turn -/

/-- What stands of a unit while other units take their turns: its record but for load step and held work, and the checks
of its latch. -/
structure Runtime.Spares (u : UnitIx) (r0 r : Runtime) : Prop where
  unit : (r0.units[u]).KeptFrom r.units[u]
  latchable : ∀ i kind, r.latchable i kind = r0.latchable i kind
  extends_ : r0.Extends r

theorem Runtime.Spares.refl (u : UnitIx) (r : Runtime) : r.Spares u r := ⟨.refl _, fun _ _ => rfl, .refl r⟩

theorem Runtime.Spares.trans {u : UnitIx} {a b c : Runtime} (h : a.Spares u b) (h' : b.Spares u c) : a.Spares u c :=
  ⟨h.unit.trans h'.unit, fun i kind => (h'.latchable i kind).trans (h.latchable i kind), h.extends_.trans h'.extends_⟩

section Each

variable {f : UnitIx → Runtime → Runtime} (ht : ∀ (v : UnitIx) (r : Runtime), r.TurnOf v (f v r))
  (he : ∀ (v : UnitIx) (r : Runtime), r.Extends (f v r))

include ht

theorem eachUnit_stopped {k : LineIx} {r : Runtime} (h : r.lines[k].state = .stopped) :
    (r.eachUnit f).lines[k].state = .stopped := by
  have fold : ∀ (l : List UnitIx) (r : Runtime), r.lines[k].state = .stopped →
      (l.foldl (fun r u => f u r) r).lines[k].state = .stopped := by
    intro l
    induction l with
    | nil => exact fun _ h => h
    | cons v l ih => exact fun r h => ih _ ((ht v r).stopped k h)
  exact fold _ r h

include he

theorem foldl_spares {u : UnitIx} (l : List UnitIx) (h : u ∉ l) (r : Runtime) :
    r.Spares u (l.foldl (fun r v => f v r) r) := by
  induction l generalizing r with
  | nil => exact .refl u r
  | cons v l ih =>
    have ne : u ≠ v := fun e => h (List.mem_cons.2 (Or.inl e))
    exact Runtime.Spares.trans ⟨(ht v r).others u ne, (ht v r).latchable, he v r⟩
      (ih (fun m => h (List.mem_cons_of_mem _ m)) _)

/-- A unit meets its turn spared by those before it, and is spared by those after it. -/
theorem eachUnit_turn (u : UnitIx) (r : Runtime) : ∃ r1, r.Spares u r1 ∧ (f u r1).Spares u (r.eachUnit f) := by
  obtain ⟨before, after, split⟩ := List.append_of_mem (List.mem_finRange u)
  have nodup := List.nodup_finRange Config.units
  rw [split, List.nodup_append, List.nodup_cons] at nodup
  obtain ⟨-, ⟨notAfter, -⟩, apart⟩ := nodup
  have notBefore : u ∉ before := fun mem => apart u mem u List.mem_cons_self rfl
  refine ⟨before.foldl (fun r v => f v r) r, foldl_spares ht he before notBefore r, ?_⟩
  have each : r.eachUnit f = after.foldl (fun r v => f v r) (f u (before.foldl (fun r v => f v r) r)) := by
    unfold Runtime.eachUnit
    rw [split, List.foldl_append, List.foldl_cons]
  rw [each]
  exact foldl_spares ht he after notAfter _

end Each

/-! ### The feeds take supply up (R93) -/

theorem candidateOf_mem {fc : FeedControl} {l : List FeedIx} {f : FeedIx} (h : fc.candidateOf l = some f) : f ∈ l := by
  induction l generalizing f with
  | nil => cases h
  | cons g l ih =>
    unfold FeedControl.candidateOf at h
    split at h
    · obtain rfl := Option.some.inj h
      exact List.mem_cons_self ..
    · next rest =>
      split at h
      · obtain rfl := Option.some.inj h
        exact List.mem_cons_of_mem _ (ih rest)
      · obtain rfl := Option.some.inj h
        exact List.mem_cons_self ..

theorem admitFeed_other {f g : FeedIx} (h : f ≠ g) (fc : FeedControl) : (fc.admitFeed g).feed[f] = fc.feed[f] := by
  have apart : g.val ≠ f.val := fun e => h (Fin.ext e.symm)
  simp [FeedControl.admitFeed, FeedControl.upd, apart]

theorem admitFeed_own (f : FeedIx) (fc : FeedControl) : (fc.admitFeed f).feed[f].state = .softstart := by
  simp [FeedControl.admitFeed, FeedControl.upd]

/-- A step of R82 ends the consideration, or admits a feed of the list and goes on. -/
theorem considerN_succ (n : Nat) (fc : FeedControl) :
    fc.considerN (n + 1) = fc ∨ ∃ g ∈ fc.admission, fc.considerN (n + 1) = (fc.admitFeed g).considerN n := by
  rw [FeedControl.considerN]
  split
  · exact Or.inl rfl
  · next g candidate =>
    split
    · exact Or.inr ⟨g, candidateOf_mem candidate, rfl⟩
    · exact Or.inl rfl

/-- Admission changes no feed but those on its list, and each of these into SOFTSTART. -/
theorem considerN_feed (n : Nat) (fc : FeedControl) (f : FeedIx) :
    (fc.considerN n).feed[f] = fc.feed[f]
      ∨ f ∈ fc.admission ∧ (fc.considerN n).feed[f].state = .softstart := by
  induction n generalizing fc with
  | zero => exact Or.inl rfl
  | succ n ih =>
    rcases considerN_succ n fc with ends | ⟨g, listed, admits⟩
    · exact Or.inl (by rw [ends])
    · rw [admits]
      by_cases e : f = g
      · subst e
        refine Or.inr ⟨listed, ?_⟩
        rcases ih (fc.admitFeed f) with same | ⟨-, starts⟩
        · rw [same]
          exact admitFeed_own f fc
        · exact starts
      · rw [← admitFeed_other e fc]
        exact (ih (fc.admitFeed g)).imp_right fun ⟨listed, starts⟩ => ⟨List.mem_of_mem_erase listed, starts⟩

theorem consider_feed (up : Bool) (fc : FeedControl) (f : FeedIx) :
    (fc.consider up).feed[f] = fc.feed[f] ∨ f ∈ fc.admission ∧ (fc.consider up).feed[f].state = .softstart := by
  unfold FeedControl.consider
  split
  · exact considerN_feed _ fc f
  · exact Or.inl rfl

theorem join_own (f : FeedIx) (fc : FeedControl) :
    (fc.join f).feed[f] = { fc.feed[f] with state := .waiting, mainOn := false } := by
  simp [FeedControl.join, FeedControl.upd]

theorem join_other (g f : FeedIx) (fc : FeedControl) (h : f ≠ g) : (fc.join g).feed[f] = fc.feed[f] := by
  have apart : g.val ≠ f.val := fun e => h (Fin.ext e.symm)
  simp [FeedControl.join, FeedControl.upd, apart]

theorem joinAll_admission (l : List FeedIx) (fc : FeedControl) :
    (l.foldl (fun c f => c.join f) fc).admission = fc.admission ++ l := by
  induction l generalizing fc with
  | nil => simp
  | cons f l ih =>
    rw [List.foldl_cons, ih]
    simp [FeedControl.join, FeedControl.upd]

theorem shedFeeds_mem (fc : FeedControl) (f : FeedIx) : f ∈ fc.shedFeeds ↔ fc.feed[f].state = .shed := by
  simp [FeedControl.shedFeeds]

theorem supplyUp_shed_feed {fc : FeedControl} {f : FeedIx} (h : fc.feed[f].state = .shed) :
    fc.supplyUp.feed[f].state = .waiting ∨ fc.supplyUp.feed[f].state = .softstart := by
  have waits : (fc.shedFeeds.foldl (fun c f => c.join f) fc).feed[f].state = .waiting := by
    have nodup : fc.shedFeeds.Nodup := (List.nodup_finRange _).filter _
    rw [foldl_entry (fun (c : FeedControl) f => c.feed[f]) (fun f c => c.join f)
      (fun _ x => { x with state := .waiting, mainOn := false }) join_own join_other nodup fc ((shedFeeds_mem fc f).2 h)]
  unfold FeedControl.supplyUp
  rcases consider_feed true (fc.shedFeeds.foldl (fun c f => c.join f) fc) f with same | ⟨-, starts⟩
  · exact Or.inl (by rw [same, waits])
  · exact Or.inr starts

theorem supplyUp_other_feed {fc : FeedControl} (listed : fc.ListsTheWaiting) {f : FeedIx}
    (shed : fc.feed[f].state ≠ .shed) (waiting : fc.feed[f].state ≠ .waiting) : fc.supplyUp.feed[f] = fc.feed[f] := by
  obtain ⟨-, admitted⟩ := listed
  have kept : (fc.shedFeeds.foldl (fun c f => c.join f) fc).feed[f] = fc.feed[f] :=
    foldl_skip (fun (c : FeedControl) f => c.feed[f]) (fun f c => c.join f) join_other fc
      (mt (shedFeeds_mem fc f).1 shed)
  unfold FeedControl.supplyUp
  rcases consider_feed true (fc.shedFeeds.foldl (fun c f => c.join f) fc) f with same | ⟨mem, -⟩
  · rw [same, kept]
  · rw [joinAll_admission, List.mem_append] at mem
    exact (mem.elim (mt (admitted f).1 waiting) (mt (shedFeeds_mem fc f).1 shed)).elim

end Machine

end Sys2Proof

namespace Sys2Proof

namespace Machine

/-! ### The gap record (R18, R19, R22, R23) -/

/-- The list holds its newest 7 records and the one appended (R19). -/
theorem appendRecord_eq (l : List GapRecord) (g : GapRecord) : appendRecord l g = l.drop (l.length - 7) ++ [g] := by
  unfold appendRecord gapListLimit
  split
  · rfl
  · rw [show l.length - 7 = 0 by omega, List.drop_zero]

/-- A unit is handed a class where it is in RIDING with no probe pending (R23). -/
theorem handedClass_eq_some (x : Settings) (c : Capture) (u : UnitRecord) (k : GapClass) :
    decide (handedClass x c u = some k)
      = (decide (u.run = .riding) && !u.probePending && decide (classify x c u = k)) := by
  unfold handedClass
  by_cases riding : u.run = .riding <;> cases probe : u.probePending <;> simp [riding]

theorem classCount_handedClasses (c : Capture) (s : State) (k : GapClass) :
    classCount (s.handedClasses c) k =
      ((List.finRange 32).filter fun u : UnitIx => decide (s.rt.units[u].run = .riding) && !s.rt.units[u].probePending
        && decide (classify s.rt.settings c s.rt.units[u] = k)).length := by
  unfold classCount State.handedClasses
  rw [List.filter_map, List.length_map]
  congr 2
  funext u
  exact handedClass_eq_some _ _ _ _

/-! ### Records that differ in load step and held work alone -/

theorem UnitRecord.KeptFrom.classed {x y : UnitRecord} (h : x.KeptFrom y) (cls : Option GapClass) :
    (x.classed cls).KeptFrom (y.classed cls) := by
  rw [show y = _ from h]
  cases cls <;> rfl

theorem UnitRecord.KeptFrom.startRun {x y : UnitRecord} (h : x.KeptFrom y) (wasValid : Bool) :
    (x.startRun wasValid).KeptFrom (y.startRun wasValid) := by
  rw [show y = _ from h]
  unfold UnitRecord.startRun
  by_cases derives : (wasValid && !x.imageValid && decide (x.runClass ≠ .cold)) = true
  · rw [if_pos derives, if_pos derives]
    rfl
  · rw [if_neg derives, if_neg derives]
    rfl

theorem UnitRecord.KeptFrom.started {x y : UnitRecord} (h : x.KeptFrom y) (m : LatchedImage) :
    (x.started m).KeptFrom (y.started m) := by
  have latched : (x.freshRun.relatch m).KeptFrom (y.freshRun.relatch m) := by
    rw [show y = _ from h]
    rfl
  have valid : y.imageValid = x.imageValid := h.field UnitRecord.imageValid fun _ _ _ => rfl
  unfold UnitRecord.started
  rw [valid]
  exact latched.startRun _

theorem UnitRecord.KeptFrom.proceeded {x y : UnitRecord} (h : x.KeptFrom y) : x.proceeded.KeptFrom y.proceeded := by
  rw [show y = _ from h]
  unfold UnitRecord.proceeded
  dsimp only
  (repeat' split) <;> rfl

/-! ### Supply up handed to the blocks (R16) -/

/-- Supply up for one unit, with what the declaration of the classes found before (R16, R57). -/
def State.unitUp (c : Capture) (s : State) (u : UnitIx) (r : Runtime) : Runtime :=
  r.supplyUp s.feedOn (handedClass s.rt.settings c s.rt.units[u]) u

theorem unitUp_turn (c : Capture) (s : State) (u : UnitIx) (r : Runtime) : r.TurnOf u (s.unitUp c u r) :=
  supplyUp_turn _ _ (.refl u r)

theorem unitUp_extends (c : Capture) (s : State) (u : UnitIx) (r : Runtime) : r.Extends (s.unitUp c u r) :=
  supplyUp_extends _ _ u (.refl r)

/-- The lines leave STOPPED (R120). -/
def Runtime.linesUp (r : Runtime) : Runtime := r.eachLine (Runtime.updLine · LineRecord.supplyUp)

theorem linesUp_line (r : Runtime) (k : LineIx) : r.linesUp.lines[k] = (r.lines[k]).supplyUp :=
  eachLine_line (g := fun _ => LineRecord.supplyUp) (fun _ _ => by simp) r k

theorem linesUp_unit (r : Runtime) (u : UnitIx) : r.linesUp.units[u] = r.units[u] :=
  eachLine_field (fun r => r.units[u]) (fun _ _ => by rw [Runtime.updLine_units]) r

theorem linesUp_extends (r : Runtime) : r.Extends r.linesUp :=
  eachLine_extends (fun _ _ h => updLine_extends _ _ h) (.refl r)

/-- The units and the lines after the end of settling, before the feeds' changes are handed. -/
def State.settledRt (c : Capture) (s : State) : Runtime :=
  ((s.rt.enqueue .gapList).eachUnit (s.unitUp c)).linesUp

section SettlingEnds

variable {s : State} {c : Capture} (h : s.monitor.capture = some c)

include h

theorem endSettling_rt : s.endSettling.rt = (s.settledRt c).handFeeds s.feeds s.feeds.supplyUp := by
  simp only [State.endSettling, h, State.handSupplyUp, State.setFeeds_rt, State.onRt_rt, State.onRt_feeds,
    State.raise_rt, State.raise_feeds]
  unfold State.settledRt Runtime.linesUp
  rfl

theorem endSettling_frame :
    s.endSettling.feeds = s.feeds.supplyUp ∧ s.endSettling.port = { s.port with events := s.port.events ||| 2 }
      ∧ s.endSettling.clock = s.clock ∧ s.endSettling.pending = s.pending ∧ s.endSettling.due = s.due := by
  simp [State.endSettling, h, State.handSupplyUp, eventBit]

theorem endSettling_extends : (s.rt.enqueue .gapList).Extends s.endSettling.rt := by
  rw [endSettling_rt h]
  have units : (s.rt.enqueue .gapList).Extends ((s.rt.enqueue .gapList).eachUnit (s.unitUp c)) :=
    eachUnit_extends (fun u r h => h.trans (unitUp_extends c s u r)) (.refl _)
  exact handFeeds_extends _ _ (units.trans (linesUp_extends _))

theorem endSettling_line {k : LineIx} (stopped : s.rt.lines[k].state = .stopped) :
    s.endSettling.rt.lines[k].state = .idle ∧ s.endSettling.rt.lines[k].quietOwed = true := by
  have still : ((s.rt.enqueue .gapList).eachUnit (s.unitUp c)).lines[k].state = .stopped :=
    eachUnit_stopped (unitUp_turn c s) (by rw [Runtime.enqueue_lines]; exact stopped)
  rw [endSettling_rt h, Runtime.handFeeds_lines, State.settledRt, linesUp_line, LineRecord.supplyUp, if_pos still]
  exact ⟨rfl, rfl⟩

/-- A unit meets its turn with its record kept but for load step and held work, and what its turn makes of it stands at the
end, but for load step and held work. -/
theorem endSettling_turn (u : UnitIx) :
    ∃ r, (s.rt.enqueue .gapList).Spares u r ∧ (s.unitUp c u r).Extends s.endSettling.rt
      ∧ (s.unitUp c u r).units[u].KeptFrom s.endSettling.rt.units[u] := by
  obtain ⟨r, before, after⟩ := eachUnit_turn (unitUp_turn c s) (unitUp_extends c s) u (s.rt.enqueue .gapList)
  refine ⟨r, before, ?_, ?_⟩
  · rw [endSettling_rt h]
    exact handFeeds_extends _ _ (after.extends_.trans (linesUp_extends _))
  · rw [endSettling_rt h, Runtime.handFeeds_units, State.settledRt, linesUp_unit]
    exact after.unit

/-- A unit in RIDING meets its turn with the record, the image directory and the checks of its latch that it had, and
what its turn makes of it stands at the end. -/
theorem endSettling_meets (u : UnitIx) :
    ∃ r, (s.rt.units[u]).KeptFrom r.units[u] ∧ r.unitLatchable u = s.rt.unitLatchable u
      ∧ r.directory = s.rt.directory ∧ r.mode = s.rt.mode ∧ (s.unitUp c u r).Extends s.endSettling.rt
      ∧ (s.unitUp c u r).units[u].KeptFrom s.endSettling.rt.units[u] := by
  obtain ⟨r, ⟨unit, latchable, kept⟩, after, stands⟩ := endSettling_turn h u
  rw [Runtime.enqueue_units] at unit
  refine ⟨r, unit, ?_, ?_, ?_, after, stands⟩
  · unfold Runtime.unitLatchable
    rw [unit.field UnitRecord.config fun _ _ _ => rfl, latchable, Runtime.latchable, Runtime.latchable,
      Runtime.enqueue_directory, Runtime.enqueue_suspect]
  · rw [kept.directory, Runtime.enqueue_directory]
  · rw [kept.mode, Runtime.enqueue_mode]

end SettlingEnds

/-! ### Where each unit in RIDING goes (R52, R56, R57) -/

theorem proceeded_kept (x : UnitRecord) :
    x.proceeded.image = x.image ∧ x.proceeded.verdicts = x.verdicts ∧ x.proceeded.aloneMark = x.aloneMark
      ∧ x.proceeded.lastClass = x.lastClass ∧ x.proceeded.runClass = x.runClass := by
  unfold UnitRecord.proceeded
  (repeat' split) <;> exact ⟨rfl, rfl, rfl, rfl, rfl⟩

theorem proceeded_probing {x : UnitRecord} (h : x.probePending = true) :
    x.proceeded.run = .probing ∧ x.proceeded.bootTimer = some 0 := by
  unfold UnitRecord.proceeded
  rw [if_pos h]
  exact ⟨rfl, rfl⟩

theorem proceeded_checking {x : UnitRecord} (h : x.probePending = false) (hc : x.runClass = .rode) :
    x.proceeded.run = .checking := by
  unfold UnitRecord.proceeded
  rw [if_neg (Bool.eq_false_iff.1 h), if_pos hc]

theorem proceeded_attending {x : UnitRecord} (h : x.probePending = false) (hc : x.runClass ≠ .rode) :
    x.proceeded.run = .attending ∧ x.proceeded.bootTimer = some 0 := by
  unfold UnitRecord.proceeded
  rw [if_neg (Bool.eq_false_iff.1 h), if_neg hc]
  exact ⟨rfl, rfl⟩

/-- The record that a unit in RIDING has once its class is handed over (R23, R57). -/
def State.settledUnit (c : Capture) (s : State) (u : UnitIx) : UnitRecord :=
  (s.rt.units[u]).classed (handedClass s.rt.settings c s.rt.units[u])

section Unit

variable {s : State} {c : Capture} {u : UnitIx}

theorem settledUnit_classified (riding : s.rt.units[u].run = .riding) (probe : s.rt.units[u].probePending = false) :
    s.settledUnit c u = { s.rt.units[u] with
      runClass := classify s.rt.settings c s.rt.units[u], origin := .classified
      lastClass := some (classify s.rt.settings c s.rt.units[u]) } := by
  unfold State.settledUnit handedClass
  rw [if_pos ⟨riding, probe⟩]
  rfl

theorem settledUnit_probing (probe : s.rt.units[u].probePending = true) : s.settledUnit c u = s.rt.units[u] := by
  unfold State.settledUnit handedClass
  rw [if_neg (by rw [probe]; simp)]
  rfl

theorem settledUnit_kept :
    (s.settledUnit c u).config = s.rt.units[u].config ∧ (s.settledUnit c u).probePending = s.rt.units[u].probePending
      ∧ (s.settledUnit c u).image = s.rt.units[u].image
      ∧ (s.settledUnit c u).imageValid = s.rt.units[u].imageValid := by
  unfold State.settledUnit UnitRecord.classed
  split <;> exact ⟨rfl, rfl, rfl, rfl⟩

/-- The entry that a unit's latch finds is the one latched before where its edition and CRC-32 are (R29). -/
theorem matchesLatch_eq_sameImage :
    (s.rt.foundImage u).matchesLatch (s.settledUnit c u) = s.rt.sameImage u := by
  obtain ⟨-, -, image, -⟩ := settledUnit_kept (s := s) (c := c) (u := u)
  unfold LatchedImage.matchesLatch Runtime.sameImage
  rw [image, Bool.decide_and]
  rfl

variable (h : s.monitor.capture = some c) (riding : s.rt.units[u].run = .riding)

include h riding

theorem endSettling_result (running : s.rt.mode ≠ .stopped) : Item.unitResult u ∈ s.endSettling.rt.queue := by
  obtain ⟨r, unit, -, -, mode, after, -⟩ := endSettling_meets h u
  refine after.mem (supplyUp_result ?_ ?_ _ _)
  · rw [unit.field UnitRecord.run fun _ _ _ => rfl, riding]
  · rw [mode]
    exact running

theorem endSettling_waits (off : s.feeds.feed[s.rt.units[u].config.feed].state ≠ .on) :
    s.endSettling.rt.units[u].run = .waitFeed
      ∧ s.endSettling.rt.units[u].runClass = (s.settledUnit c u).runClass
      ∧ s.endSettling.rt.units[u].origin = (s.settledUnit c u).origin
      ∧ s.endSettling.rt.units[u].lastClass = (s.settledUnit c u).lastClass := by
  obtain ⟨r, unit, -, -, -, -, stands⟩ := endSettling_meets h u
  have feed : s.feedOn r.units[u].config.feed = false := by
    rw [unit.field UnitRecord.config fun _ _ _ => rfl]
    exact decide_eq_false off
  have made : (s.unitUp c u r).units[u]
      = { (r.units[u]).classed (handedClass s.rt.settings c s.rt.units[u]) with run := .waitFeed } :=
    supplyUp_waits ((unit.field UnitRecord.run fun _ _ _ => rfl).trans riding) feed _
  have classed := unit.classed (handedClass s.rt.settings c s.rt.units[u])
  rw [made] at stands
  exact ⟨stands.field UnitRecord.run fun _ _ _ => rfl,
    (stands.field UnitRecord.runClass fun _ _ _ => rfl).trans (classed.field UnitRecord.runClass fun _ _ _ => rfl),
    (stands.field UnitRecord.origin fun _ _ _ => rfl).trans (classed.field UnitRecord.origin fun _ _ _ => rfl),
    (stands.field UnitRecord.lastClass fun _ _ _ => rfl).trans (classed.field UnitRecord.lastClass fun _ _ _ => rfl)⟩

variable (on : s.feeds.feed[s.rt.units[u].config.feed].state = .on)

include on

theorem endSettling_fails (bad : s.rt.unitLatchable u = false) :
    s.endSettling.rt.units[u].run = .failed ∧ s.endSettling.rt.units[u].cause = .imageChanged
      ∧ s.endSettling.rt.units[u].lastClass = (s.settledUnit c u).lastClass := by
  obtain ⟨r, unit, latchable, -, -, -, stands⟩ := endSettling_meets h u
  have feed : s.feedOn r.units[u].config.feed = true := by
    rw [unit.field UnitRecord.config fun _ _ _ => rfl]
    exact decide_eq_true on
  obtain ⟨run, cause, last⟩ := supplyUp_fails ((unit.field UnitRecord.run fun _ _ _ => rfl).trans riding) feed
    (handedClass s.rt.settings c s.rt.units[u]) (latchable.trans bad)
  have classed := unit.classed (handedClass s.rt.settings c s.rt.units[u])
  exact ⟨(stands.field UnitRecord.run fun _ _ _ => rfl).trans run,
    (stands.field UnitRecord.cause fun _ _ _ => rfl).trans cause,
    ((stands.field UnitRecord.lastClass fun _ _ _ => rfl).trans last).trans
      (classed.field UnitRecord.lastClass fun _ _ _ => rfl)⟩

/-- Where the latch passes, the unit's record at the end is that of its run started and gone on with. -/
theorem endSettling_proceeds (good : s.rt.unitLatchable u = true) :
    (((s.settledUnit c u).started (s.rt.foundImage u)).proceeded).KeptFrom s.endSettling.rt.units[u] := by
  obtain ⟨r, unit, latchable, directory, -, -, stands⟩ := endSettling_meets h u
  have config := unit.field UnitRecord.config fun _ _ _ => rfl
  have feed : s.feedOn r.units[u].config.feed = true := by
    rw [config]
    exact decide_eq_true on
  have made := supplyUp_proceeds ((unit.field UnitRecord.run fun _ _ _ => rfl).trans riding) feed
    (handedClass s.rt.settings c s.rt.units[u]) (latchable.trans good)
  rw [foundImage_congr config directory] at made
  exact (((unit.classed _).started _).proceeded.trans made).trans stands

/-- What every run start whose latch passes leaves, whichever way the unit goes on. -/
theorem endSettling_latched (good : s.rt.unitLatchable u = true) :
    s.endSettling.rt.units[u].image = s.rt.foundImage u ∧ s.endSettling.rt.units[u].verdicts = 0
      ∧ s.endSettling.rt.units[u].aloneMark = false
      ∧ s.endSettling.rt.units[u].lastClass = (s.settledUnit c u).lastClass := by
  have stands := endSettling_proceeds h riding on good
  obtain ⟨image, verdicts, alone, last, -⟩ := proceeded_kept ((s.settledUnit c u).started (s.rt.foundImage u))
  obtain ⟨image', verdicts', alone', -, last', -⟩ := started_kept (s.rt.foundImage u) (s.settledUnit c u)
  exact ⟨(stands.field UnitRecord.image fun _ _ _ => rfl).trans (image.trans image'),
    (stands.field UnitRecord.verdicts fun _ _ _ => rfl).trans (verdicts.trans verdicts'),
    (stands.field UnitRecord.aloneMark fun _ _ _ => rfl).trans (alone.trans alone'),
    (stands.field UnitRecord.lastClass fun _ _ _ => rfl).trans (last.trans last')⟩

theorem endSettling_probing (good : s.rt.unitLatchable u = true) (probe : s.rt.units[u].probePending = true) :
    s.endSettling.rt.units[u].run = .probing ∧ s.endSettling.rt.units[u].bootTimer = some 0 := by
  have stands := endSettling_proceeds h riding on good
  obtain ⟨-, -, -, pending, -, -⟩ := started_kept (s.rt.foundImage u) (s.settledUnit c u)
  obtain ⟨-, pending', -, -⟩ := settledUnit_kept (s := s) (c := c) (u := u)
  obtain ⟨run, boot⟩ := proceeded_probing (pending.trans (pending'.trans probe))
  exact ⟨(stands.field UnitRecord.run fun _ _ _ => rfl).trans run,
    (stands.field UnitRecord.bootTimer fun _ _ _ => rfl).trans boot⟩

/-- A unit with no probe pending keeps its class where its image entry is as it was, and goes by its class. -/
theorem endSettling_goes (good : s.rt.unitLatchable u = true) (probe : s.rt.units[u].probePending = false) :
    s.endSettling.rt.units[u].runClass
        = (if s.rt.sameImage u = true then classify s.rt.settings c s.rt.units[u] else .cold)
      ∧ (s.endSettling.rt.units[u].runClass = .rode → s.endSettling.rt.units[u].run = .checking)
      ∧ (s.endSettling.rt.units[u].runClass ≠ .rode →
          s.endSettling.rt.units[u].run = .attending ∧ s.endSettling.rt.units[u].bootTimer = some 0) := by
  have stands := endSettling_proceeds h riding on good
  obtain ⟨-, -, -, pending, -, -⟩ := started_kept (s.rt.foundImage u) (s.settledUnit c u)
  obtain ⟨-, pending', -, valid⟩ := settledUnit_kept (s := s) (c := c) (u := u)
  obtain ⟨-, -, -, -, cls⟩ := proceeded_kept ((s.settledUnit c u).started (s.rt.foundImage u))
  have clear := pending.trans (pending'.trans probe)
  have given : (s.settledUnit c u).runClass = classify s.rt.settings c s.rt.units[u] := by
    rw [settledUnit_classified riding probe]
  have invalid : (s.settledUnit c u).imageValid = false → (s.settledUnit c u).runClass = .cold := fun bad =>
    given.trans (classify_forced (Or.inr (Or.inl (valid.symm.trans bad))))
  have made := (stands.field UnitRecord.runClass fun _ _ _ => rfl).trans cls
  have run := stands.field UnitRecord.run fun _ _ _ => rfl
  have boot := stands.field UnitRecord.bootTimer fun _ _ _ => rfl
  refine ⟨?_, fun rode => ?_, fun other => ?_⟩
  · rw [made, started_runClass _ invalid, matchesLatch_eq_sameImage, given]
  · rw [run, proceeded_checking clear (made.symm.trans rode)]
  · obtain ⟨attending, timer⟩ := proceeded_attending clear (mt made.trans other)
    exact ⟨run.trans attending, boot.trans timer⟩

end Unit

section Settled

variable {s : State} {c : Capture} (h : s.monitor.capture = some c)

include h

theorem endSettling_of_not_riding {u : UnitIx} (other : s.rt.units[u].run ≠ .riding) :
    s.endSettling.rt.units[u].run = s.rt.units[u].run := by
  obtain ⟨r, unit, -, -, -, -, stands⟩ := endSettling_meets h u
  have met : r.units[u].run = s.rt.units[u].run := unit.field UnitRecord.run fun _ _ _ => rfl
  have idle : s.unitUp c u r = r := supplyUp_not_riding (fun riding => other (met.symm.trans riding)) _ _
  rw [idle] at stands
  exact (stands.field UnitRecord.run fun _ _ _ => rfl).trans met

/-- The class handed over stays the unit's last class, wherever the unit goes. -/
theorem endSettling_lastClass {u : UnitIx} (riding : s.rt.units[u].run = .riding) :
    s.endSettling.rt.units[u].lastClass = (s.settledUnit c u).lastClass := by
  by_cases on : s.feeds.feed[s.rt.units[u].config.feed].state = .on
  · cases good : s.rt.unitLatchable u with
    | true =>
      obtain ⟨-, -, -, last⟩ := endSettling_latched h riding on good
      exact last
    | false =>
      obtain ⟨-, -, last⟩ := endSettling_fails h riding on good
      exact last
  · obtain ⟨-, -, -, last⟩ := endSettling_waits h riding on
    exact last

theorem endSettling_gapList (running : s.rt.mode ≠ .stopped) : Item.gapList ∈ s.endSettling.rt.queue :=
  (endSettling_extends h).mem (mem_enqueue _ _ running)

theorem endSettling_monitor_eq :
    s.endSettling.monitor = { s.monitor with
      supply := .up, gapCounter := 0, capture := none
      gapList := s.monitor.gapList.drop (s.monitor.gapList.length - 7) ++
        [s.monitor.record c (s.handedClasses c)] } := by
  rw [endSettling_monitor h, ← appendRecord_eq]
  rfl

end Settled

/-- Settles O16. The units take supply up one after another: each meets its turn with its record but for load step and
held work (`endSettling_meets`), and what its turn makes of it stands at the end. -/
theorem settlingEnds : Obligations.SettlingEnds := by
  intro c s due settling captured listed counted
  have runs : exec .settlingEnd s = .next (State.endSettling { s with due := s.due.erase .settlingEnd }) := by
    show Host.Outcome.next (s.takeDue .settlingEnd) = _
    rw [takeDue_eq, if_pos due]
    exact congrArg Host.Outcome.next (if_pos settling)
  have h : (State.monitor { s with due := s.due.erase .settlingEnd }).capture = some c := captured
  obtain ⟨fed, port, clock, waiting, left⟩ := endSettling_frame h
  have kept := endSettling_extends h
  refine ⟨_, runs, ?monitor, port, clock, waiting, left, kept.mode.trans (Runtime.enqueue_mode _ _),
    kept.settings.trans (Runtime.enqueue_settings _ _), kept.directory.trans (Runtime.enqueue_directory _ _),
    endSettling_gapList h, fun u other => endSettling_of_not_riding h other, fun u riding => ?unit,
    fun k stopped => endSettling_line h stopped, fun f shed => ?shed, fun f shed waits => ?feed⟩
  case monitor =>
    have record := endSettling_monitor_eq h
    rw [Monitor.record, classCount_handedClasses, classCount_handedClasses, classCount_handedClasses] at record
    exact record
  case unit =>
    have last := endSettling_lastClass h riding
    refine ⟨endSettling_result h riding, fun probe => ?_, fun probe => ?_, fun off => ?_, fun on => ⟨?_, fun good => ?_⟩⟩
    · exact last.trans (congrArg UnitRecord.lastClass (settledUnit_classified riding probe))
    · exact last.trans (congrArg UnitRecord.lastClass (settledUnit_probing probe))
    · obtain ⟨run, cls, origin, -⟩ := endSettling_waits h riding off
      refine ⟨run, fun probe => ⟨?_, ?_⟩, fun probe => ?_⟩
      · exact cls.trans (congrArg UnitRecord.runClass (settledUnit_classified riding probe))
      · exact origin.trans (congrArg UnitRecord.origin (settledUnit_classified riding probe))
      · exact cls.trans (congrArg UnitRecord.runClass (settledUnit_probing probe))
    · intro bad
      obtain ⟨run, cause, -⟩ := endSettling_fails h riding on bad
      exact ⟨run, cause⟩
    · obtain ⟨image, verdicts, alone, -⟩ := endSettling_latched h riding on good
      exact ⟨image, verdicts, alone, endSettling_probing h riding on good, endSettling_goes h riding on good⟩
  case shed =>
    rw [fed]
    exact supplyUp_shed_feed shed
  case feed =>
    rw [fed]
    exact supplyUp_other_feed listed shed waits

end Machine

end Sys2Proof

/-! PROOFS. What keeps the gap quiet (R55, R120): every command that runs while the Supply Monitor is in GAP or SETTLING
leaves the managed units in RIDING and the lines stopped. -/

namespace Sys2Proof

namespace Machine

/-! ### One record of the runtime after an update -/

theorem updUnit_other {u v : UnitIx} (ne : v ≠ u) (f : UnitRecord → UnitRecord) (r : Runtime) :
    (r.updUnit u f).units[v] = r.units[v] := by
  have apart : u.val ≠ v.val := fun e => ne (Fin.ext e.symm)
  simp [apart]

theorem updLine_line (k : LineIx) (f : LineRecord → LineRecord) (r : Runtime) :
    (r.updLine k f).lines[k] = f r.lines[k] := by
  simp

theorem updLine_other {k j : LineIx} (ne : j ≠ k) (f : LineRecord → LineRecord) (r : Runtime) :
    (r.updLine k f).lines[j] = r.lines[j] := by
  have apart : k.val ≠ j.val := fun e => ne (Fin.ext e.symm)
  simp [apart]

/-! ### A quiet runtime -/

/-- The unit is unmanaged or in RIDING (R55). -/
def UnitRecord.Resting (x : UnitRecord) : Prop := x.run = .unmanaged ∨ x.run = .riding

theorem UnitRecord.Resting.not_contacting {x : UnitRecord} (h : x.Resting) : ¬ x.contacting = true := by
  rcases h with e | e <;> simp [UnitRecord.contacting, e]

theorem UnitRecord.Resting.not_serving {x : UnitRecord} (h : x.Resting) : ¬ x.serving = true := by
  rcases h with e | e <;> simp [UnitRecord.serving, e]

/-- No unit runs and no line has work: what a gap and its settling leave standing (R55, R120). -/
structure Runtime.Quiet (r : Runtime) : Prop where
  units : ∀ u : UnitIx, (r.units[u]).Resting
  lines : ∀ k : LineIx, (r.lines[k]).Stopped

/-- The supply state is GAP or SETTLING. -/
def Monitor.InGap (m : Monitor) : Prop := m.supply = .gap ∨ m.supply = .settling

theorem quietInGap_iff (s : State) : s.QuietInGap ↔ (s.monitor.InGap → s.rt.Quiet) :=
  ⟨fun h gap => ⟨(h gap).1, (h gap).2⟩, fun h gap => ⟨(h gap).units, (h gap).lines⟩⟩

/-- A command that leaves the Supply Monitor alone keeps the gap quiet where, with the supply in GAP or SETTLING, it keeps a
quiet runtime quiet. -/
theorem State.QuietInGap.kept {s t : State} (h : s.QuietInGap) (monitor : t.monitor = s.monitor)
    (rt : s.monitor.InGap → s.rt.Quiet → t.rt.Quiet) : t.QuietInGap := by
  rw [quietInGap_iff] at h ⊢
  intro gap
  rw [monitor] at gap
  exact rt gap (h gap)

theorem Runtime.Quiet.same {r r' : Runtime} (h : r.Quiet) (hu : r'.units = r.units) (hl : r'.lines = r.lines) :
    r'.Quiet :=
  ⟨hu ▸ h.units, hl ▸ h.lines⟩

section Quiet

variable {r : Runtime} (h : r.Quiet)

include h

theorem Runtime.Quiet.txn (k : LineIx) : r.lines[k].txn = none := by
  obtain ⟨-, txn, -⟩ := h.lines k
  exact txn

theorem Runtime.Quiet.slot (k : LineIx) : r.lines[k].slot = .free := by
  obtain ⟨-, -, -, slot⟩ := h.lines k
  exact slot

theorem Runtime.Quiet.state (k : LineIx) : r.lines[k].state = .stopped := by
  obtain ⟨state, -⟩ := h.lines k
  exact state

theorem Runtime.Quiet.groupRecord (k : LineIx) : (r.lines[k]).groupRecord = none := by
  simp only [LineRecord.groupRecord, h.slot k]

theorem Runtime.Quiet.transferImage (k : LineIx) : r.transferImage k = none := by
  simp only [Runtime.transferImage, h.slot k]

/-- A unit in no run is in none of the states from which a run goes on. -/
theorem Runtime.Quiet.run_ne (u : UnitIx) {st : RunState} (unmanaged : st ≠ .unmanaged) (riding : st ≠ .riding) :
    r.units[u].run ≠ st := by
  rintro rfl
  exact (h.units u).elim unmanaged riding

theorem enqueue_quiet (i : Item) : (r.enqueue i).Quiet := h.same (by simp) (by simp)

theorem handFeeds_quiet (old new : FeedControl) : (r.handFeeds old new).Quiet := h.same (by simp) (by simp)

theorem orphanRead_quiet : r.orphanRead.Quiet := ⟨h.units, h.lines⟩

theorem dropFetches_quiet : r.dropFetches.Quiet := ⟨h.units, h.lines⟩

theorem clearFetches_quiet : Runtime.Quiet { r with fetchList := [] } := ⟨h.units, h.lines⟩

theorem refreshSuspect_quiet (i : ImageIx) : (r.refreshSuspect i).Quiet := h.same (by simp) (by simp)

/-- A unit's record may change as long as the unit stays at rest. -/
theorem updUnit_quiet (u : UnitIx) {f : UnitRecord → UnitRecord} (hf : (r.units[u]).Resting → (f r.units[u]).Resting) :
    (r.updUnit u f).Quiet := by
  refine ⟨fun v => ?_, by simpa using h.lines⟩
  by_cases e : v = u
  · subst e
    rw [updUnit_unit]
    exact hf (h.units v)
  · rw [updUnit_other e]
    exact h.units v

theorem updLine_quiet (k : LineIx) {f : LineRecord → LineRecord} (hf : ∀ l, l.Stopped → (f l).Stopped) :
    (r.updLine k f).Quiet := by
  refine ⟨by simpa using h.units, fun j => ?_⟩
  by_cases e : j = k
  · subst e
    rw [updLine_line]
    exact hf _ (h.lines j)
  · rw [updLine_other e]
    exact h.lines j

theorem eachUnit_quiet {f : UnitIx → Runtime → Runtime} (hf : ∀ u r, r.Quiet → (f u r).Quiet) :
    (r.eachUnit f).Quiet :=
  List.foldlRecOn _ _ h fun r quiet u _ => hf u r quiet

theorem eachLine_quiet {f : LineIx → Runtime → Runtime} (hf : ∀ k r, r.Quiet → (f k r).Quiet) :
    (r.eachLine f).Quiet :=
  List.foldlRecOn _ _ h fun r quiet k _ => hf k r quiet

end Quiet

/-! ### The runs and the lines of a quiet runtime -/

section Quiet

variable {r : Runtime} (h : r.Quiet)

include h

theorem answer_quiet (u : UnitIx) (tag : Byte) (code : AnswerCode) : (r.answer u tag code).Quiet :=
  enqueue_quiet (updUnit_quiet h u id) _

theorem closeInFlight_quiet (u : UnitIx) (code : AnswerCode) : (r.closeInFlight u code).Quiet := by
  unfold Runtime.closeInFlight
  split
  · exact h
  · exact answer_quiet (updUnit_quiet h u id) _ _ _

theorem resumeRound_quiet (k : LineIx) : (r.resumeRound k).Quiet := by
  unfold Runtime.resumeRound
  rw [h.groupRecord k]
  exact h

theorem resumeRounds_quiet : r.resumeRounds.Quiet := eachLine_quiet h fun k _ quiet => resumeRound_quiet quiet k

theorem loseFeed_quiet (u : UnitIx) : (r.loseFeed u).Quiet := by
  unfold Runtime.loseFeed
  rcases h.units u with e | e <;> rw [e]
  · exact h
  · exact updUnit_quiet h u id

theorem leftOn_quiet (f : FeedIx) : (r.leftOn f).Quiet := by
  refine resumeRounds_quiet (eachUnit_quiet h fun u r quiet => ?_)
  split
  · exact loseFeed_quiet quiet u
  · exact quiet

/-- No unit waits for its feed. -/
theorem reachedOn_quiet (f : FeedIx) : (r.reachedOn f).Quiet := by
  refine eachUnit_quiet h fun u r quiet => ?_
  rw [if_neg fun ⟨waits, _⟩ => quiet.run_ne u (by simp) (by simp) waits]
  exact quiet

theorem bootExpiry_quiet (u : UnitIx) : (r.bootExpiry u).Quiet := by
  rw [Runtime.bootExpiry, if_neg fun ⟨contacting, _⟩ => (h.units u).not_contacting contacting]
  exact h

theorem attendExpiry_quiet (u : UnitIx) : (r.attendExpiry u).Quiet := by
  rw [Runtime.attendExpiry, if_neg fun ⟨contacting, _⟩ => (h.units u).not_contacting contacting]
  exact h

theorem pollExpiry_quiet (u : UnitIx) : (r.pollExpiry u).Quiet := by
  rw [Runtime.pollExpiry, if_neg fun ⟨serving, _⟩ => (h.units u).not_serving serving]
  exact h

theorem keepVerdict_quiet (k : LineIx) : (r.keepVerdict k).Quiet := by
  unfold Runtime.keepVerdict
  rw [h.txn k]
  exact h

theorem dissolve_quiet (k : LineIx) : (r.dissolve k).Quiet := by
  unfold Runtime.dissolve
  rw [h.groupRecord k]
  exact h

/-- No unit loads, and no line has a group. -/
theorem failLoads_quiet : r.failLoads.Quiet := by
  have verdicts := eachLine_quiet h fun k _ quiet => keepVerdict_quiet quiet k
  have loads := eachUnit_quiet verdicts (f := fun u r =>
      if r.units[u].run = .loading then (r.updUnit u fun x => { x with imageValid := false }).failRun u .area else r)
    fun u r quiet => by
      rw [if_neg (quiet.run_ne u (by simp) (by simp))]
      exact quiet
  have groups := eachLine_quiet loads (f := Runtime.dissolve) fun k _ quiet => dissolve_quiet quiet k
  exact clearFetches_quiet (orphanRead_quiet groups)

theorem enqueueStartItems_quiet : r.enqueueStartItems.Quiet :=
  List.foldlRecOn _ _ (enqueue_quiet (enqueue_quiet h _) _) fun _ quiet _ _ => enqueue_quiet quiet _

omit h in
theorem stopForHost_stopped {l : LineRecord} (hl : l.Stopped) : l.stopForHost.Stopped := by
  obtain ⟨state, -⟩ := hl
  exact ⟨if_pos state, rfl, rfl, rfl⟩

theorem stop_quiet : r.stop.Quiet := by
  have left := eachUnit_quiet (r := { r with mode := .stopped, queue := [] }) (h.same rfl rfl)
    (f := fun u r => if (r.units[u]).managed then r.updUnit u UnitRecord.leave else r) fun u r quiet => by
      split
      · exact updUnit_quiet quiet u fun _ => Or.inl rfl
      · exact quiet
  have lines := eachLine_quiet left (f := fun k r => r.updLine k LineRecord.stopForHost)
    fun k _ quiet => updLine_quiet quiet k fun _ => stopForHost_stopped
  exact orphanRead_quiet (dropFetches_quiet lines)

/-- With no transaction outstanding and no transfer, a withdrawal takes the unit off an empty list. -/
theorem withdraw_quiet (u : UnitIx) : (r.withdraw u).Quiet := by
  have off : (r.updLine r.units[u].config.line fun l =>
      if l.serves u then (l.unlist u).abandon else l.unlist u).Quiet := by
    refine updLine_quiet h _ fun l ⟨state, txn, waits, slot⟩ => ?_
    have none : l.serves u = false := by simp only [LineRecord.serves, txn]
    rw [if_neg (Bool.eq_false_iff.1 none)]
    exact ⟨state, txn, by simp [LineRecord.unlist, waits], slot⟩
  unfold Runtime.withdraw Runtime.leaveGroup
  simp only [off.groupRecord]
  have left := updUnit_quiet off u (f := fun x => { x with heldWork := none, loadStep := .idle }) id
  rw [if_neg (by rw [id, left.slot]; exact fun e => nomatch e)]
  exact left

theorem retire_quiet (u : UnitIx) (tag : Byte) : (r.retire u tag).Quiet := by
  unfold Runtime.retire
  split
  · exact resumeRounds_quiet (answer_quiet
      (updUnit_quiet (closeInFlight_quiet (withdraw_quiet h u) u _) u fun _ => Or.inl rfl) _ _ _)
  · exact answer_quiet h _ _ _

/-- A unit in RIDING takes a RELOAD with no more than its force-cold and its answer (R75). -/
theorem reloadEffect_quiet (u : UnitIx) (on : Bool) : (r.reloadEffect u on).Quiet := by
  unfold Runtime.reloadEffect
  rcases h.units u with e | e <;> rw [e] <;> exact h

theorem reload_quiet (u : UnitIx) (tag : Byte) (on : Bool) : (r.reload u tag on).Quiet := by
  unfold Runtime.reload
  split
  · have cold := updUnit_quiet h u (f := fun x => { x with forceCold := true }) id
    have taken := updUnit_quiet (closeInFlight_quiet cold u .cut) u
      (f := fun x => { x with inFlight := some { request := .reload, tag := tag } }) id
    exact resumeRounds_quiet (reloadEffect_quiet taken u on)
  · exact answer_quiet h _ _ _

theorem edit_quiet (u : UnitIx) (tag : Byte) (base : Word) (c : Context) : (r.edit u tag base c).Quiet := by
  unfold Runtime.edit
  split
  · exact answer_quiet h _ _ _
  · have idle : ¬ (r.units[u].run = .running ∨ r.units[u].run = .held) := fun e =>
      e.elim (h.run_ne u (by simp) (by simp)) (h.run_ne u (by simp) (by simp))
    rw [if_neg idle]
    exact answer_quiet (enqueue_quiet (updUnit_quiet h u id) _) _ _ _

/-- A RELEASE_DOOR is refused: no unit is in HELD (R76). -/
theorem release_quiet (u : UnitIx) (tag : Byte) : (r.release u tag).Quiet := by
  have refused : (r.units[u]).releaseRefusal ≠ none := by
    unfold UnitRecord.releaseRefusal
    rw [if_pos (h.run_ne u (by simp) (by simp) : r.units[u].run ≠ .held)]
    (repeat' split) <;> simp
  unfold Runtime.release
  split
  · exact answer_quiet h _ _ _
  · next none => exact absurd none refused

theorem fetched_quiet (q : FetchRequest) (data : List Byte) : (r.fetched q data).Quiet := by
  have placed : (r.updLine q.line fun l =>
      let l1 := l.placeBlock q.second { index := q.block, data := data }
      if q.firstPass then { l1 with crc := l1.crc.map fun c => crc32Over c data } else l1).Quiet := by
    refine updLine_quiet h _ fun l stopped => ?_
    unfold LineRecord.placeBlock
    (repeat' split) <;> exact stopped
  unfold Runtime.fetched
  dsimp only
  rw [placed.transferImage]
  exact placed

theorem countTimers_quiet : r.countTimers.Quiet := by
  refine ⟨fun u => ?_, ?_⟩
  · have counted : r.countTimers.units[u] = (r.units[u]).countTimers (r.busy u) := Vector.getElem_ofFn u.isLt
    rw [counted, UnitRecord.Resting, countTimers_run]
    exact h.units u
  · unfold Runtime.countTimers
    exact h.lines

end Quiet

end Machine

end Sys2Proof

/-! PROOFS. Each block of the part, then each command, keeps the gap quiet (R55, R120). -/

namespace Sys2Proof

namespace Machine

/-! ### Steps that leave the runtime alone -/

theorem engineNext_rt (s : State) : s.engineNext.rt = s.rt := by
  unfold State.engineNext
  (repeat' split) <;> rfl

theorem wantSweep_rt (s : State) : s.wantSweep.rt = s.rt :=
  engineNext_rt { s with port := { s.port with sweepWanted := true } }

theorem run_rt (s : State) : s.run.rt = s.rt := by
  unfold State.run
  (repeat' split) <;> rfl

theorem wantHeader_rt (s : State) : s.wantHeader.rt = s.rt := by
  unfold State.wantHeader
  split
  · exact engineNext_rt { s with port := { s.port with headerWanted := true } }
  · rfl

/-! ### The blocks of the part with a quiet runtime -/

theorem onRt_quiet {s : State} {f : Runtime → Runtime} (h : (f s.rt).Quiet) : (s.onRt f).rt.Quiet := h

section Quiet

variable {s : State} (h : s.rt.Quiet)

include h

theorem setFeeds_quiet (fc : FeedControl) : (s.setFeeds fc).rt.Quiet := handFeeds_quiet h _ _

theorem afterSoftStart_quiet : s.afterSoftStart.rt.Quiet := setFeeds_quiet h _

theorem trip_quiet (f : FeedIx) : (s.trip f).rt.Quiet := by
  have left : (((s.setFeeds (s.feeds.trip s.uptimeNow f)).raise .feedEvent).onRt (Runtime.leftOn f)).rt.Quiet :=
    onRt_quiet (leftOn_quiet (setFeeds_quiet h _) f)
  unfold State.trip
  dsimp only
  split
  · exact afterSoftStart_quiet left
  · exact left

theorem feedReachesOn_quiet (f : FeedIx) : (s.feedReachesOn f).rt.Quiet :=
  afterSoftStart_quiet (onRt_quiet (reachedOn_quiet (setFeeds_quiet h _) f))

theorem cooldownEnds_quiet (f : FeedIx) : (s.cooldownEnds f).rt.Quiet := by
  unfold State.cooldownEnds
  dsimp only
  split <;> exact setFeeds_quiet h _

theorem sweepExpiry_quiet : s.sweepExpiry.rt.Quiet := by
  unfold State.sweepExpiry
  split
  · rw [wantSweep_rt]
    exact h
  · exact h

theorem enterAreaFault_quiet : s.enterAreaFault.rt.Quiet :=
  failLoads_quiet (r := { s.rt with mode := .areaFault }) (h.same rfl rfl)

theorem areaFault_quiet : s.areaFault.rt.Quiet := by
  unfold State.areaFault
  (repeat' split)
  · exact enterAreaFault_quiet h
  · exact h
  · exact h

theorem failRead_quiet : s.failRead.rt.Quiet := by
  have freed : (s.onRt fun r => { r with read := none }).rt.Quiet := h.same rfl rfl
  unfold State.failRead
  split
  · exact h
  · dsimp only
    split
    · split
      · exact areaFault_quiet (s := { s.onRt fun r => { r with read := none } with
          port := { s.port with job := none, recovering := false } }) freed
      · exact areaFault_quiet freed
    · exact freed

theorem failWrite_quiet : s.failWrite.rt.Quiet := by
  unfold State.failWrite
  split
  · exact h
  · next w _ =>
    dsimp only
    split
    · refine areaFault_quiet (s := State.onRt (fun r => { r with queue := w.item :: r.queue.erase w.item })
        { s with port := { s.port with write := none } }) (h.same rfl rfl)
    · exact h

theorem enterRunning_quiet : s.enterRunning.rt.Quiet := by
  have running : Runtime.Quiet { s.rt with mode := .running } := h.same rfl rfl
  unfold State.enterRunning
  rw [engineNext_rt]
  dsimp only
  split
  · exact enqueueStartItems_quiet running
  · exact running

theorem halt_quiet : s.halt.rt.Quiet := by
  unfold State.halt
  split
  · exact stop_quiet h
  · exact h

omit h in
theorem restart_quiet (gap : s.monitor.InGap) (keep : Bool) : (s.restart keep).rt.Quiet := by
  refine ⟨fun u => ?_, fun k => ?_⟩
  · show (State.reset.rt.units[u]).Resting
    rw [reset_unit]
    exact Or.inl rfl
  · rw [restart_line, restartedLine_eq]
    exact ⟨if_pos gap, rfl, rfl, rfl⟩

theorem writeControl_quiet (gap : s.monitor.InGap) (v : Word) : (s.writeControl v).rt.Quiet := by
  have stored : (s.storeControl v).rt.Quiet := h
  have ran : (if controlRun v then (s.storeControl v).run else (s.storeControl v).halt).rt.Quiet := by
    split
    · rw [run_rt]
      exact stored
    · exact halt_quiet stored
  unfold State.writeControl
  split
  · exact restart_quiet gap _
  · dsimp only
    split
    · rw [wantHeader_rt]
      exact ran
    · exact ran

theorem writeSweep_quiet : s.writeSweep.rt.Quiet := by
  unfold State.writeSweep
  split
  · rw [wantSweep_rt]
    exact h
  · exact h

theorem writeChange_quiet (v : Word) : (s.writeChange v).rt.Quiet := by
  unfold State.writeChange
  split <;> exact h

theorem writeRegister_quiet (gap : s.monitor.InGap) (offset : BitVec 12) (lanes : BitVec 4) (v : Word) :
    (s.writeRegister offset lanes v).rt.Quiet := by
  unfold State.writeRegister
  (repeat' split)
  case isFalse.isTrue => exact h
  all_goals first
    | exact h
    | exact writeControl_quiet h gap v
    | exact writeSweep_quiet h
    | exact writeChange_quiet h v

/-- In GAP and SETTLING an ENLIST places its unit in RIDING (R54). -/
theorem takeEnlist_quiet (gap : s.monitor.InGap) (u : UnitIx) (c : UnitConfig) (tag : Byte) :
    (s.takeEnlist u c tag).rt.Quiet := by
  have riding : enlistedState s.monitor.supply = .riding := by rcases gap with e | e <;> rw [e] <;> rfl
  unfold State.takeEnlist
  rw [riding]
  exact enqueue_quiet (updUnit_quiet h u fun _ => Or.inr rfl) _

theorem enlist_quiet (gap : s.monitor.InGap) (u : UnitIx) (tag : Byte) (data : List Byte) :
    (s.enlist u tag data).rt.Quiet := by
  have refused : ∀ code, (s.onRt (Runtime.answer u tag code)).rt.Quiet := answer_quiet h u tag
  unfold State.enlist
  split
  · exact refused _
  · split
    · exact refused _
    · next c _ =>
      have refreshed : (s.onRt (Runtime.refreshSuspect c.image)).rt.Quiet := refreshSuspect_quiet h _
      split
      · dsimp only
        split
        · exact takeEnlist_quiet refreshed gap u c tag
        · exact answer_quiet refreshed u tag _
      · exact refused _

theorem unitRequest_quiet (gap : s.monitor.InGap) (u : UnitIx) (data : List Byte) : (s.unitRequest u data).rt.Quiet := by
  unfold State.unitRequest
  dsimp only
  split
  · exact answer_quiet h u _ _
  · next q _ =>
    split
    · exact answer_quiet h u _ _
    · cases q with
      | enlist => exact enlist_quiet h gap u _ data
      | retire => exact retire_quiet h u _
      | reload => exact reload_quiet h u _ _
      | contextEdit => exact edit_quiet h u _ _ _
      | releaseDoor => exact release_quiet h u _

theorem unitBurst_quiet (gap : s.monitor.InGap) (u : UnitIx) (data : List Byte) : (s.unitBurst u data).rt.Quiet := by
  unfold State.unitBurst
  dsimp only
  split
  · exact unitRequest_quiet (s := { s with port := { s.port with
      adoptedUnit := s.port.adoptedUnit.set u (unitRequestTagAt data) } }) h gap u data
  · exact h

theorem feedRequest_quiet (f : FeedIx) (q : Option FeedRequest) (tag : Byte) : (s.feedRequest f q tag).rt.Quiet := by
  have answered : ∀ fc, ((s.setFeeds fc).onRt (Runtime.enqueue (.feedStatus f))).rt.Quiet := fun fc =>
    enqueue_quiet (setFeeds_quiet h fc) _
  unfold State.feedRequest
  dsimp only
  split
  · exact onRt_quiet (leftOn_quiet (answered _) f)
  · exact answered _

theorem feedEntry_quiet (data : List Byte) (f : FeedIx) : (s.feedEntry data f).rt.Quiet := by
  have delivered : (s.deliverFeed data f).rt.Quiet := setFeeds_quiet h _
  unfold State.feedEntry
  dsimp only
  split
  · exact feedRequest_quiet (s := { s.deliverFeed data f with port := { s.port with
      adoptedFeed := s.port.adoptedFeed.set f (feedTagAt data f) } }) delivered f _ _
  · exact delivered

theorem sweepBurst_quiet (gap : s.monitor.InGap) (n : Nat) (data : List Byte) : (s.sweepBurst n data).rt.Quiet := by
  unfold State.sweepBurst
  split
  · exact h.same rfl rfl
  · split
    · exact List.foldlRecOn (motive := fun t : State => t.rt.Quiet) _ _ h fun _ quiet f _ => feedEntry_quiet quiet data f
    · split
      · exact unitBurst_quiet h gap _ data
      · exact h

theorem nextSweepBurst_quiet (n : Nat) : (s.nextSweepBurst n).rt.Quiet := by
  unfold State.nextSweepBurst
  split
  · exact h
  · rw [engineNext_rt]
    exact h

theorem adoptBurst_quiet (n : Nat) (data : List Byte) : (s.adoptBurst n data).rt.Quiet := by
  unfold State.adoptBurst
  split
  · exact h.same rfl rfl
  · split
    · exact List.foldlRecOn (motive := fun t : State => t.rt.Quiet) _ _ h fun _ quiet f _ => setFeeds_quiet quiet _
    · split <;> exact h

theorem nextAdoptBurst_quiet (n : Nat) : (s.nextAdoptBurst n).rt.Quiet := by
  unfold State.nextAdoptBurst
  split
  · exact h
  · exact enterRunning_quiet h

theorem loadHeader_quiet (data : List Byte) : (s.loadHeader data).rt.Quiet := by
  have settings : Runtime.Quiet { s.rt with settings := (clampHeader (headerFields data)).settings } := h.same rfl rfl
  unfold State.loadHeader
  dsimp only
  split <;> exact enqueue_quiet (handFeeds_quiet settings _ _) _

theorem afterHeader_quiet : s.afterHeader.rt.Quiet := by
  unfold State.afterHeader
  (repeat' split)
  · exact h
  · exact enterRunning_quiet h
  · rw [engineNext_rt]
    exact h

/-- A burst that completes keeps a quiet runtime quiet where what it brings does. -/
theorem completeBurst_quiet (data : List Byte) {act : ReadUser → Option (State → State)}
    (ha : ∀ x go, act x = some go → (go s.endBurst).rt.Quiet) : (s.completeBurst data act).rt.Quiet := by
  have freed : s.endBurst.rt.Quiet := h.same rfl rfl
  unfold State.completeBurst
  split
  · exact h
  · split
    · exact h
    · next go hgo =>
      (repeat' split)
      · exact ha _ go hgo
      · exact freed
      · exact h

theorem sendBurst_quiet {t : State} (sent : s.sendBurst = some t) : t.rt.Quiet := by
  have job : ∀ j, (s.sendJob j).rt.Quiet := fun _ => h.same rfl rfl
  have fetch : ∀ q, (s.sendFetch q).rt.Quiet := fun _ => h.same rfl rfl
  unfold State.sendBurst at sent
  split at sent
  · cases sent
  · split at sent <;> cases sent
    · exact job _
    · exact fetch _
    · split
      · exact fetch _
      · exact job _

/-- The edition of a unit's result goes up with its write; its state does not change (R38). -/
theorem takeItem_quiet (i : Item) (rest : List Item) : (s.rt.takeItem i rest).Quiet := by
  cases i with
  | unitResult u =>
    refine ⟨fun v => ?_, h.lines⟩
    show ((s.rt.units.set u { s.rt.units[u] with resultEdition := s.rt.units[u].resultEdition + 1 })[v]).Resting
    by_cases e : v = u
    · subst e
      rw [Fin.getElem_fin, Vector.getElem_set_self]
      exact h.units v
    · have apart : u.val ≠ v.val := fun e' => e (Fin.ext e'.symm)
      rw [Fin.getElem_fin, Vector.getElem_set_ne _ _ apart]
      exact h.units v
  | feedStatus | gapList | headerStatus => exact h.same rfl rfl

theorem sendItem_quiet {t : State} (sent : s.sendItem = some t) : t.rt.Quiet := by
  unfold State.sendItem at sent
  split at sent
  · split at sent <;> cases sent
    exact takeItem_quiet h _ _
  · cases sent

theorem completeWrite_quiet : s.completeWrite.rt.Quiet := by
  unfold State.completeWrite
  split
  · exact h
  · dsimp only
    split <;> exact h

theorem elapse_quiet (dt : Nat) : (s.elapse dt).rt.Quiet := by
  refine ⟨h.units, fun k => ?_⟩
  have elapsed : (s.elapse dt).rt.lines[k] = (s.rt.lines[k]).elapse dt := Vector.getElem_map ..
  rw [elapsed]
  exact h.lines k

/-- Nothing comes about on a stopped line (R120). -/
theorem lineEvent_quiet (k : LineIx) (clk : Nat) {enabled : LineRecord → Bool} (effect : Runtime → Runtime)
    (stopped : ∀ l : LineRecord, l.state = .stopped → enabled l = false) :
    (s.lineEvent k clk enabled effect).rt.Quiet := by
  have disabled : enabled ((s.rt.lines[k]).elapse clk) = false := stopped _ (h.state k)
  rw [lineEvent_eq, if_neg fun ⟨_, on⟩ => Bool.eq_false_iff.1 disabled on]
  exact h

theorem count_quiet : s.count.rt.Quiet := by
  rw [count_rt]
  exact countTimers_quiet (elapse_quiet h _)

theorem tickFeeds_quiet (fault : BitVec 16) : (s.tickFeeds fault).rt.Quiet :=
  List.foldlRecOn (motive := fun t : State => t.rt.Quiet) _ _ h fun _ quiet f _ => trip_quiet quiet f

end Quiet

/-! ### The gap is kept quiet -/

/-- A gap declaration leaves a quiet runtime, whatever the one before (R55, R120). -/
theorem handGap_quiet (s : State) : s.handGap.rt.Quiet := by
  refine ⟨fun u => ?_, fun k => ?_⟩
  · rw [UnitRecord.Resting, handGap_unit, ridden_run]
    split <;> simp
  · rw [handGap_line]
    exact stopForGap_stopped _

theorem quietInGap_of_quiet {s : State} (h : s.rt.Quiet) : s.QuietInGap := (quietInGap_iff s).2 fun _ => h

/-- With the supply in neither GAP nor SETTLING nothing has to be quiet. -/
theorem quietInGap_of_not_gap {s : State} (h : ¬ s.monitor.InGap) : s.QuietInGap :=
  (quietInGap_iff s).2 fun gap => absurd gap h

theorem Monitor.toUp_not_inGap (m : Monitor) : ¬ m.toUp.InGap := by simp [Monitor.InGap, Monitor.toUp]

/-- The end of settling leads to UP, and without a capture changes nothing. -/
theorem endSettling_quietInGap {s : State} (h : s.QuietInGap) : s.endSettling.QuietInGap := by
  cases captured : s.monitor.capture with
  | none => simpa only [State.endSettling, captured] using h
  | some c =>
    refine quietInGap_of_not_gap ?_
    rw [endSettling_monitor captured]
    simp [Monitor.InGap, Monitor.endSettling, Monitor.toUp]

theorem dueEffect_quietInGap {s : State} (h : s.QuietInGap) (d : Due) : (s.dueEffect d).QuietInGap := by
  cases d with
  | gapDeclared =>
    unfold State.dueEffect
    dsimp only
    split
    · exact quietInGap_of_quiet (handGap_quiet _)
    · exact h
  | shedCommand =>
    unfold State.dueEffect
    dsimp only
    split
    · rw [quietInGap_iff] at h ⊢
      exact fun gap => setFeeds_quiet (s := { s with monitor := { s.monitor with shed := true } }) (h gap) _
    · exact h
  | settlingEnd =>
    unfold State.dueEffect
    dsimp only
    split
    · exact endSettling_quietInGap h
    · exact h
  | uptimeSecond =>
    refine h.kept (endSecond_monitor s) fun _ quiet => ?_
    show s.endSecond.rt.Quiet
    unfold State.endSecond
    split <;> exact quiet
  | sweepTimerExpiry => exact h.kept (sweepExpiry_monitor s) fun _ => sweepExpiry_quiet
  | bootTimeout u => exact h.kept rfl fun _ quiet => bootExpiry_quiet quiet u
  | attendTimerExpiry u => exact h.kept rfl fun _ quiet => attendExpiry_quiet quiet u
  | pollTimerExpiry u => exact h.kept rfl fun _ quiet => pollExpiry_quiet quiet u
  | mainSwitchOn f =>
    unfold State.dueEffect
    dsimp only
    split
    · exact h.kept rfl fun _ quiet => setFeeds_quiet quiet _
    · exact h
  | feedReachedOn f =>
    unfold State.dueEffect
    dsimp only
    split
    · exact h.kept rfl fun _ quiet => feedReachesOn_quiet quiet f
    · exact h
  | cooldownEnd f =>
    unfold State.dueEffect
    dsimp only
    split
    · exact h.kept (cooldownEnds_monitor f s) fun _ quiet => cooldownEnds_quiet quiet f
    · exact h
  | provingTimeReached f =>
    unfold State.dueEffect
    dsimp only
    split
    · exact h.kept rfl fun _ quiet => setFeeds_quiet quiet _
    · exact h
  | completionTimeout path =>
    cases path <;> unfold State.dueEffect <;> dsimp only <;> split
    · exact h.kept (failRead_monitor s) fun _ => failRead_quiet
    · exact h
    · exact h.kept (failWrite_monitor s) fun _ => failWrite_quiet
    · exact h

theorem takeDue_quietInGap {s : State} (h : s.QuietInGap) (d : Due) : (s.takeDue d).QuietInGap := by
  rw [takeDue_eq]
  split
  · exact dueEffect_quietInGap (s := { s with due := s.due.erase d }) h d
  · exact h

theorem flush_quietInGap {s : State} (h : s.QuietInGap) : s.flush.QuietInGap :=
  List.foldlRecOn (motive := State.QuietInGap) _ _ h fun _ quiet d _ => takeDue_quietInGap quiet d

/-- Of the changes that the filter accepts, one declares a gap, two pass between GAP and SETTLING, and the others lead out
of both (R8 to R14). -/
theorem supplyChange_quietInGap {s : State} (h : s.QuietInGap) (rep : SupplyReport) :
    (s.supplyChange rep).QuietInGap := by
  unfold State.supplyChange
  split
  · exact quietInGap_of_not_gap (Monitor.toUp_not_inGap _)
  · exact quietInGap_of_quiet (handGap_quiet _)
  · exact quietInGap_of_not_gap (by simp [Monitor.InGap, Monitor.lose])
  · dsimp only
    split <;> exact quietInGap_of_not_gap (by simp [Monitor.InGap, Monitor.flicker, Monitor.toUp])
  · next gap => exact quietInGap_of_quiet ((quietInGap_iff s).1 h (Or.inl gap))
  · next settling => exact quietInGap_of_quiet ((quietInGap_iff s).1 h (Or.inr settling))
  · exact h

theorem tickSupply_quietInGap {s : State} (h : s.QuietInGap) (lineOk : Bool) : (s.tickSupply lineOk).QuietInGap := by
  have filtered : ∀ x, (s.withFilter x).QuietInGap := fun _ => h
  unfold State.tickSupply
  dsimp only
  split
  · exact supplyChange_quietInGap (filtered _) _
  · exact filtered _

theorem compare_quietInGap {s : State} (h : s.QuietInGap) : s.compare.QuietInGap := h

theorem tick_quietInGap {s : State} (h : s.QuietInGap) (lineOk : Bool) (fault : BitVec 16) :
    (s.tick lineOk fault).QuietInGap := by
  have fed : (s.flush.count.tickFeeds fault).QuietInGap := by
    refine (flush_quietInGap h).kept ?_ fun _ quiet => tickFeeds_quiet (count_quiet quiet) fault
    rw [tickFeeds_monitor, count_monitor]
  rw [tick_eq]
  exact compare_quietInGap (tickSupply_quietInGap fed lineOk)

theorem exec_quietInGap {c : Instr} {s t : State} (h : s.QuietInGap) (e : exec c s = .next t) : t.QuietInGap := by
  cases c with
  | powerOnReset => cases e; exact quietInGap_of_not_gap fun gap => gap.elim nofun nofun
  | tick lineOk fault =>
    rw [exec_tick] at e
    exact Host.Outcome.next.inj e ▸ tick_quietInGap h lineOk fault
  | uptimeSecond | gapDeclared | shedCommand | settlingEnd | mainSwitchOn | feedReachedOn | cooldownEnd
  | provingTimeReached | bootTimeout | attendTimerExpiry | pollTimerExpiry | sweepTimerExpiry | completionTimeout =>
    cases e; exact takeDue_quietInGap h _
  | linkReset => cases e; exact h.kept rfl fun gap quiet => restart_quiet gap _
  | changeRead | stateWrite => cases e; exact h
  | runStart | runRecovery | runStop | loadHeader | restart | ackMode | changeIe | stateIe =>
    cases e; exact h.kept (writeControl_monitor _ _) fun gap quiet => writeControl_quiet quiet gap _
  | sweep => cases e; exact h.kept (writeSweep_monitor s) fun _ => writeSweep_quiet
  | changeWrite v => cases e; exact h.kept (writeChange_monitor v s) fun _ quiet => writeChange_quiet quiet v
  | registerWrite =>
    cases e
    exact h.kept (writeRegister_monitor _ _ _ _) fun gap quiet => writeRegister_quiet quiet gap _ _ _
  | writeComplete => cases e; exact h.kept (completeWrite_monitor s) fun _ => completeWrite_quiet
  | busErrorCompletion path =>
    cases path <;> cases e
    · exact h.kept (failRead_monitor s) fun _ => failRead_quiet
    · exact h.kept (failWrite_monitor s) fun _ => failWrite_quiet
  | readBurstSend sendable =>
    simp only [exec, execReadBurstSend] at e
    split at e
    · cases e; exact h
    · next sent =>
      cases e
      cases sendable
      · exact h.kept ((failRead_monitor _).trans (sendBurst_monitor sent)) fun _ quiet =>
          failRead_quiet (sendBurst_quiet quiet sent)
      · exact h.kept (sendBurst_monitor sent) fun _ quiet => sendBurst_quiet quiet sent
  | writeBegin sendable =>
    simp only [exec, execWriteBegin] at e
    split at e
    · cases e; exact h
    · next sent =>
      cases e
      cases sendable
      · exact h.kept ((failWrite_monitor _).trans (sendItem_monitor sent)) fun _ quiet =>
          failWrite_quiet (sendItem_quiet quiet sent)
      · exact h.kept (sendItem_monitor sent) fun _ quiet => sendItem_quiet quiet sent
  | sweepBurstComplete data =>
    cases e
    refine h.kept (completeBurst_monitor _ _ ?_ s) fun gap quiet => completeBurst_quiet quiet data ?_
    · rintro (_ | _ | _ | _) go ⟨⟩ s
      simp
    · rintro (_ | _ | _ | _) go ⟨⟩
      exact nextSweepBurst_quiet (sweepBurst_quiet (s := s.endBurst) (quiet.same rfl rfl) gap _ data) _
  | adoptingSweepBurstComplete data =>
    cases e
    refine h.kept (completeBurst_monitor _ _ ?_ s) fun _ quiet => completeBurst_quiet quiet data ?_
    · rintro (_ | _ | _ | _) go ⟨⟩ s
      simp
    · rintro (_ | _ | _ | _) go ⟨⟩
      exact nextAdoptBurst_quiet (adoptBurst_quiet (s := s.endBurst) (quiet.same rfl rfl) _ data) _
  | headerLoadComplete data =>
    cases e
    refine h.kept (completeBurst_monitor _ _ ?_ s) fun _ quiet => completeBurst_quiet quiet data ?_
    · rintro (_ | _ | _ | _) go ⟨⟩ s
      simp
    · rintro (_ | _ | _ | _) go ⟨⟩
      exact afterHeader_quiet (loadHeader_quiet (s := s.endBurst) (quiet.same rfl rfl) data)
  | fetchComplete data =>
    cases e
    refine h.kept (completeBurst_monitor _ _ ?_ s) fun _ quiet => completeBurst_quiet quiet data ?_
    · rintro (_ | _ | _ | _) go ⟨⟩ s
      dsimp only
      split <;> rfl
    · rintro (_ | _ | _ | ⟨q, _⟩) go ⟨⟩
      have freed : s.endBurst.rt.Quiet := quiet.same rfl rfl
      dsimp only
      split
      · exact fetched_quiet freed q data
      · exact freed
  | frameTransmitted | pauseEnd | quietBreakHalfEnd | quietEnd | characterReceived | breakReceived | frameReceived
  | firstReplyTimeout | interCharacterTimeout | discardEnd | highTimerExpiry | arbiterChoice | startBitConfirmed =>
    cases e
    refine h.kept (lineEvent_monitor ..) fun _ quiet => lineEvent_quiet quiet _ _ _ fun l stopped => ?_
    simp [LineRecord.frameOver, LineRecord.pauseOver, LineRecord.breakHalfOver, LineRecord.quietOver,
      LineRecord.characterHeard, LineRecord.receivingNow, LineRecord.breakHeard, LineRecord.frameHeld,
      LineRecord.replyLate, LineRecord.gapLate, LineRecord.discardOver, LineRecord.highOver, LineRecord.arbiterReady,
      LineRecord.startConfirmed, LineRecord.listening, stopped]

/-- Settles O8: in GAP and SETTLING no command gives a unit a run or a line work. -/
theorem stepKeepsTheGapQuiet : Obligations.StepKeepsTheGapQuiet := by
  intro s t h e
  unfold step at e
  split at e
  · cases e; exact h
  · next rest _ => exact exec_quietInGap (s := { s with pending := rest }) h e

end Machine

end Sys2Proof

/-! PROOFS. The stop of the controller (R78, R122, R171, R186, R192, R205), and the run timers (R60, R68, R135). -/

namespace Sys2Proof

namespace Machine

/-! ### The controller stops (R78, R122, R171, R186, R192, R205) -/

/-- The record of a unit after a stop (R48, R78). -/
def UnitRecord.afterStop (x : UnitRecord) : UnitRecord := if x.managed then x.leave else x

/-- What the units' part of a stop leaves: no unit managed, and nothing queued. -/
def Runtime.unitsStopped (r : Runtime) : Runtime :=
  Runtime.eachUnit (fun u r => if (r.units[u]).managed then r.updUnit u UnitRecord.leave else r)
    { r with mode := .stopped, queue := [] }

/-- What the lines' part of a stop leaves. -/
def Runtime.linesStopped (r : Runtime) : Runtime :=
  r.unitsStopped.eachLine fun k r => r.updLine k LineRecord.stopForHost

theorem stop_eq (r : Runtime) : r.stop = r.linesStopped.dropFetches.orphanRead := rfl

@[simp] theorem orphanRead_units (r : Runtime) : r.orphanRead.units = r.units := rfl

@[simp] theorem orphanRead_lines (r : Runtime) : r.orphanRead.lines = r.lines := rfl

theorem unitsStopped_unit (r : Runtime) (u : UnitIx) : r.unitsStopped.units[u] = (r.units[u]).afterStop := by
  refine eachUnit_unit (g := fun _ => UnitRecord.afterStop) (fun u r => ?_) _ u
  unfold UnitRecord.afterStop
  split
  · rw [Runtime.updUnit_units]
  · simp

/-- A field that no change of a unit's or a line's record touches is as it was, but for what the stop itself clears. -/
theorem linesStopped_field {β : Type} (p : Runtime → β) (unit : ∀ u f r, p (Runtime.updUnit u f r) = p r)
    (line : ∀ k f r, p (Runtime.updLine k f r) = p r) (r : Runtime) :
    p r.linesStopped = p { r with mode := .stopped, queue := [] } := by
  refine (eachLine_field p (fun k r => line k _ r) r.unitsStopped).trans (eachUnit_field p (fun u r => ?_) _)
  split
  · exact unit u _ r
  · rfl

theorem stop_unit (r : Runtime) (u : UnitIx) : r.stop.units[u] = (r.units[u]).afterStop := by
  have lines : r.linesStopped.units = r.unitsStopped.units := eachLine_field Runtime.units (fun k r => by simp) _
  rw [stop_eq, orphanRead_units, dropFetches_units, lines, unitsStopped_unit]

theorem stop_line (r : Runtime) (k : LineIx) : r.stop.lines[k] = (r.lines[k]).stopForHost := by
  have units : r.unitsStopped.lines = r.lines := eachUnit_field Runtime.lines (fun _ _ => by split <;> simp) _
  have lines : r.linesStopped.lines[k] = (r.unitsStopped.lines[k]).stopForHost :=
    eachLine_line (g := fun _ => LineRecord.stopForHost) (fun k r => by simp) _ k
  rw [stop_eq, orphanRead_lines, dropFetches_lines, lines, units]

/-- The queue is discarded and nothing is queued by the stop itself: the mode is STOPPED. -/
theorem linesStopped_extends (r : Runtime) : Runtime.Extends { r with mode := .stopped, queue := [] } r.linesStopped :=
  eachLine_extends (fun _ _ h => updLine_extends _ _ h)
    (eachUnit_extends (fun _ _ h => ite_extends _ (updUnit_extends _ _ h) h) (.refl _))

/-- What a stop leaves of the runtime apart from the units and the lines. -/
theorem stop_rest (r : Runtime) :
    r.stop.mode = .stopped ∧ r.stop.queue = [] ∧ r.stop.fetchList = [] ∧ r.stop.settings = r.settings
      ∧ r.stop.directory = r.directory ∧ r.stop.suspect = r.suspect := by
  have kept := linesStopped_extends r
  have suspect : r.linesStopped.suspect = r.suspect :=
    linesStopped_field Runtime.suspect (fun _ _ _ => by simp) (fun _ _ _ => by simp) r
  have dropped : ∀ x : Runtime, x.dropFetches.orphanRead.mode = x.mode ∧ x.dropFetches.orphanRead.queue = x.queue
      ∧ x.dropFetches.orphanRead.fetchList = [] ∧ x.dropFetches.orphanRead.settings = x.settings
      ∧ x.dropFetches.orphanRead.directory = x.directory ∧ x.dropFetches.orphanRead.suspect = x.suspect :=
    fun _ => ⟨rfl, rfl, rfl, rfl, rfl, rfl⟩
  obtain ⟨mode, queue, fetches, settings, directory, marks⟩ := dropped r.linesStopped
  rw [stop_eq]
  exact ⟨mode.trans kept.mode, queue.trans (kept.silent rfl), fetches, settings.trans kept.settings,
    directory.trans kept.directory, marks.trans suspect⟩

theorem orphanRead_live {r : Runtime} {b : ReadBurst} (h : r.orphanRead.read = some b) : b.live = false := by
  obtain ⟨b', -, rfl⟩ := Option.map_eq_some_iff.1 (show r.read.map _ = some b from h)
  rfl

/-- A managed unit keeps its context and its answer, and loses its marks and its request in flight (R48, R78). -/
theorem afterStop_kept (x : UnitRecord) :
    x.afterStop.run = .unmanaged ∧ (x.run = .unmanaged → x.afterStop = x)
      ∧ (x.run ≠ .unmanaged → x.afterStop.inFlight = none ∧ x.afterStop.imageValid = false
          ∧ x.afterStop.answerTag = x.answerTag ∧ x.afterStop.answerCode = x.answerCode)
      ∧ x.afterStop.context = x.context ∧ x.afterStop.contextSeq = x.contextSeq ∧ x.afterStop.config = x.config := by
  unfold UnitRecord.afterStop UnitRecord.managed
  by_cases unmanaged : x.run = .unmanaged
  · rw [if_neg (by simp [unmanaged])]
    exact ⟨unmanaged, fun _ => rfl, fun managed => absurd unmanaged managed, rfl, rfl, rfl⟩
  · rw [if_pos (decide_eq_true unmanaged)]
    exact ⟨rfl, fun e => absurd e unmanaged, fun _ => ⟨rfl, rfl, rfl, rfl⟩, rfl, rfl, rfl⟩

theorem stopForHost_kept (l : LineRecord) :
    l.stopForHost.state = (if l.state = .stopped then .stopped else .idle)
      ∧ l.stopForHost.quietOwed = true ∧ l.stopForHost.txn = none ∧ l.stopForHost.waitList = []
      ∧ l.stopForHost.slot = .free ∧ l.stopForHost.buffer0 = none ∧ l.stopForHost.buffer1 = none
      ∧ l.stopForHost.seqCounter = l.seqCounter ∧ l.stopForHost.damaged = l.damaged
      ∧ l.stopForHost.latched = l.latched ∧ l.CutsTo l.stopForHost := by
  refine ⟨rfl, rfl, rfl, rfl, rfl, rfl, rfl, rfl, rfl, rfl, cutsTo_of_tail _ _ rfl ?_⟩
  unfold LineRecord.stopForHost
  dsimp only
  split <;> simp

theorem stop_live {r : Runtime} {b : ReadBurst} (h : r.stop.read = some b) : b.live = false := by
  rw [stop_eq] at h
  exact orphanRead_live h

/-- What a stop leaves of the port, once the stored fields are written (R186, R205). -/
def Port.stopped (v : Word) (p : Port) : Port :=
  { p.haltEngine with
    ackExplicit := controlAckMode v, changeIe := controlChangeIe v, stateIe := controlStateIe v
    starting := false, recovering := false, startItems := false, engineHadLast := false
    write := p.write.map fun w => { w with live := false } }

/-- RUN written as 0 stops a controller that runs or starts; a LOAD_HEADER written with it finds the mode STOPPED. -/
theorem writeControl_stop {w : Word} {s : State} (restart : ¬ controlRestart w = true) (run : ¬ controlRun w = true)
    (active : s.rt.mode ≠ .stopped ∨ s.port.starting = true) :
    s.writeControl w = { s with rt := s.rt.stop, port := s.port.stopped w } := by
  have halted : (s.storeControl w).halt = { s with rt := s.rt.stop, port := s.port.stopped w } := if_pos active
  have idle : ¬ s.rt.stop.mode = .running := by
    obtain ⟨mode, -⟩ := stop_rest s.rt
    rw [mode]
    simp
  have dropped : State.wantHeader { s with rt := s.rt.stop, port := s.port.stopped w }
      = { s with rt := s.rt.stop, port := s.port.stopped w } := if_neg idle
  rw [State.writeControl, if_neg restart]
  dsimp only
  rw [if_neg run, halted, dropped, ite_self]

/-- Settles O40: the stored fields, then each unit and each line by what a stop makes of it. -/
theorem runStops : Obligations.RunStops := by
  intro v s _ _ active
  have restart : ¬ controlRestart (withoutRestart v &&& ~~~1) = true := by simp [controlRestart, withoutRestart]
  have run : ¬ controlRun (withoutRestart v &&& ~~~1) = true := by simp [controlRun, withoutRestart]
  have ack : controlAckMode (withoutRestart v &&& ~~~1) = v.getLsbD 4 := by simp [controlAckMode, withoutRestart]
  obtain ⟨mode, queue, fetches, settings, directory, suspect⟩ := stop_rest s.rt
  refine ⟨{ s with rt := s.rt.stop, port := s.port.stopped (withoutRestart v &&& ~~~1) },
    congrArg Host.Outcome.next (writeControl_stop restart run active), mode, rfl, rfl, rfl, rfl, rfl, rfl, rfl, queue,
    fetches, fun w hw => ?write, fun b hb => stop_live hb, fun u => ?unit, fun k => ?line, settings, directory, suspect,
    rfl, rfl, rfl, rfl, rfl, rfl, ack, rfl, rfl, rfl, rfl⟩
  case write =>
    obtain ⟨w', -, rfl⟩ := Option.map_eq_some_iff.1 (show s.port.write.map _ = some w from hw)
    rfl
  case unit =>
    dsimp only
    rw [stop_unit]
    exact afterStop_kept _
  case line =>
    dsimp only
    rw [stop_line]
    exact stopForHost_kept _

/-! ### The run timers (R60, R68, R135) -/

/-- The mirror shows neither the boot timer's held expiry nor the attend timer (R38). -/
theorem updUnit_unmirrored {u : UnitIx} {f : UnitRecord → UnitRecord} {r : Runtime}
    (h : (f r.units[u]).mirror = r.units[u].mirror) :
    r.updUnit u f = { r with units := r.units.set u (f r.units[u]) } := by
  unfold Runtime.updUnit Runtime.setUnit
  rw [if_pos h]

/-- A change of a line that counts nothing hands no item (R121). -/
theorem updLine_uncounted {k : LineIx} {f : LineRecord → LineRecord} {r : Runtime}
    (h : lineCounters (f r.lines[k]) = lineCounters r.lines[k]) :
    r.updLine k f = { r with lines := r.lines.set k (f r.lines[k]) } := by
  unfold Runtime.updLine Runtime.setLine
  rw [if_pos h]

/-- Work of a unit that has none waiting or outstanding joins its line's list at the tail (R135). -/
theorem post_idle {u : UnitIx} {r : Runtime} {k : LineIx} (line : r.units[u].config.line = k)
    (waits : (r.lines[k]).waits u = false) (serves : (r.lines[k]).serves u = false) (w : Work) :
    r.post u w = { r with
      lines := r.lines.set k { r.lines[k] with waitList := r.lines[k].waitList ++ [.single u w] } } := by
  subst line
  have listed : ∀ l : LineRecord, l.waits u = false →
      l.list u w = { l with waitList := l.waitList ++ [.single u w] } := fun l h => by
    unfold LineRecord.list
    rw [if_neg (by simp [h])]
  unfold Runtime.post
  rw [if_neg (by rw [serves]; simp), updLine_uncounted, listed _ waits]
  rw [listed _ waits]
  rfl

/-- Settles O26: the timer's expiry, then the work posted on a line on which the unit has none. -/
theorem timersPostWork : Obligations.TimersPostWork := by
  intro u s k waits serves
  refine ⟨fun n due contacting timer => ?attend, fun n due serving timer => ?poll⟩
  case attend =>
    show Host.Outcome.next (s.takeDue (.attendTimerExpiry u)) = _
    have expires : (s.rt.units[u]).contacting = true ∧ counted s.rt.units[u].attendTimer = true :=
      ⟨decide_eq_true contacting, by simp only [timer]; rfl⟩
    have stopped : s.rt.updUnit u (fun x => { x with attendTimer := none })
        = { s.rt with units := s.rt.units.set u { s.rt.units[u] with attendTimer := none } } :=
      updUnit_unmirrored rfl
    have posts : s.rt.attendExpiry u = { s.rt with
        units := s.rt.units.set u { s.rt.units[u] with attendTimer := none }
        lines := s.rt.lines.set k { s.rt.lines[k] with waitList := s.rt.lines[k].waitList ++ [.single u .hello] } } := by
      have line : (s.rt.updUnit u fun x => { x with attendTimer := none }).units[u].config.line = k := by
        rw [updUnit_unit]
      rw [Runtime.attendExpiry, if_pos expires, post_idle line (by rwa [Runtime.updUnit_lines])
        (by rwa [Runtime.updUnit_lines]), stopped]
    rw [takeDue_eq, if_pos due]
    exact congrArg (fun rt => Host.Outcome.next { s with due := s.due.erase (.attendTimerExpiry u), rt := rt }) posts
  case poll =>
    show Host.Outcome.next (s.takeDue (.pollTimerExpiry u)) = _
    have free : s.rt.busy u = false := by
      unfold Runtime.busy
      rw [waits, serves]
      rfl
    have expires : (s.rt.units[u]).serving = true ∧ counted s.rt.units[u].pollTimer = true ∧ s.rt.busy u = false :=
      ⟨decide_eq_true serving, by simp only [timer]; rfl, free⟩
    have posts : s.rt.pollExpiry u = { s.rt with
        lines := s.rt.lines.set k { s.rt.lines[k] with waitList := s.rt.lines[k].waitList ++ [.single u .poll] } } := by
      rw [Runtime.pollExpiry, if_pos expires]
      exact post_idle rfl waits serves .poll
    rw [takeDue_eq, if_pos due]
    exact congrArg (fun rt => Host.Outcome.next { s with due := s.due.erase (.pollTimerExpiry u), rt := rt }) posts

end Machine

end Sys2Proof

/-! PROOFS. The left ON notice and the trips that give it (R59, R88, R97), with what the rounds of a group make of a unit that
loses its feed (R162). -/

namespace Sys2Proof

namespace Machine

/-! ### Folds in which one entry has its own turn -/

/-- What every step of a fold but that of `i` keeps stands up to the step of `i` and after it. -/
theorem foldl_around {σ ι : Type} {R : σ → σ → Prop} (refl : ∀ s, R s s)
    (trans : ∀ {a b c}, R a b → R b c → R a c) {act : σ → ι → σ} {i : ι}
    (other : ∀ j, j ≠ i → ∀ s, R s (act s j)) {l : List ι} (nodup : l.Nodup) (mem : i ∈ l)
    (s : σ) : ∃ s1, R s s1 ∧ R (act s1 i) (l.foldl act s) := by
  have fold : ∀ (l : List ι), i ∉ l → ∀ s, R s (l.foldl act s) := by
    intro l
    induction l with
    | nil => exact fun _ s => refl s
    | cons j l ih =>
      intro h s
      have ne : j ≠ i := fun e => h (List.mem_cons.2 (Or.inl e.symm))
      exact trans (other j ne s) (ih (fun m => h (List.mem_cons_of_mem _ m)) _)
  obtain ⟨before, after, rfl⟩ := List.append_of_mem mem
  rw [List.nodup_append, List.nodup_cons] at nodup
  obtain ⟨-, ⟨notAfter, -⟩, apart⟩ := nodup
  refine ⟨before.foldl act s, fold _ (fun h => apart i h i List.mem_cons_self rfl) s, ?_⟩
  rw [List.foldl_append, List.foldl_cons]
  exact fold _ notAfter _

/-- What every step of a fold keeps stands after the fold. -/
theorem foldl_keeps_rel {σ ι : Type} {R : σ → σ → Prop} (refl : ∀ s, R s s)
    (trans : ∀ {a b c}, R a b → R b c → R a c) {act : σ → ι → σ}
    (each : ∀ i s, R s (act s i)) (l : List ι) (s : σ) : R s (l.foldl act s) := by
  induction l generalizing s with
  | nil => exact refl s
  | cons i l ih => exact trans (each i s) (ih _)

/-! ### Groups and the steps of their rounds (R155, R162, R163) -/

/-- Group `g` comes from `g0` by steps made and members taken off: it has no new member and no new step, and a member with a
step to come stays a member. -/
structure Group.StepsFrom (g0 g : Group) : Prop where
  members : ∀ u, g.isMember u = true → g0.isMember u = true
  steps : ∀ u, some u ∈ g.todo → some u ∈ g0.todo ∧ (g0.isMember u = true → g.isMember u = true)

theorem Group.StepsFrom.refl (g : Group) : g.StepsFrom g := ⟨fun _ => id, fun _ h => ⟨h, id⟩⟩

theorem Group.StepsFrom.trans {a b c : Group} (h : a.StepsFrom b) (h' : b.StepsFrom c) : a.StepsFrom c :=
  ⟨fun u m => h.members u (h'.members u m), fun u hu =>
    have ⟨inB, keepsB⟩ := h'.steps u hu
    have ⟨inA, keepsA⟩ := h.steps u inB
    ⟨inA, fun m => keepsB (keepsA m)⟩⟩

/-- The same members, and no step left. -/
theorem Group.stepsFrom_of_nil {g0 g : Group} (members : g.members = g0.members) (todo : g.todo = []) :
    g0.StepsFrom g := by
  refine ⟨fun u => ?_, fun u hu => ?_⟩
  · unfold Group.isMember
    rw [members]
    exact id
  · rw [todo] at hu
    cases hu

/-- The next step of a round is made. -/
theorem Group.stepsFrom_tail {g : Group} {step : Option UnitIx} {rest : List (Option UnitIx)} (h : g.todo = step :: rest) :
    g.StepsFrom { g with todo := rest } :=
  ⟨fun _ => id, fun _ hu => ⟨by rw [h]; exact List.mem_cons_of_mem _ hu, id⟩⟩

theorem Group.without_isMember (u v : UnitIx) (g : Group) :
    (g.without u).isMember v = (decide (v ≠ u) && g.isMember v) := by
  unfold Group.without Group.isMember
  rw [Bool.eq_iff_iff]
  simp only [List.any_filter, List.any_eq_true, Bool.and_eq_true, decide_eq_true_eq]
  constructor
  · rintro ⟨m, mem, other, rfl⟩
    exact ⟨other, m, mem, rfl⟩
  · rintro ⟨other, m, mem, rfl⟩
    exact ⟨m, mem, other, rfl⟩

theorem Group.without_stepsFrom (u : UnitIx) (g : Group) : g.StepsFrom (g.without u) := by
  refine ⟨fun v m => ?_, fun v hv => ?_⟩
  · rw [Group.without_isMember, Bool.and_eq_true] at m
    obtain ⟨-, member⟩ := m
    exact member
  · obtain ⟨mem, other⟩ := List.mem_filter.1 (show some v ∈ g.todo.filter fun t => decide (t ≠ some u) from hv)
    have ne : v ≠ u := fun e => of_decide_eq_true other (congrArg some e)
    exact ⟨mem, fun m => by rw [Group.without_isMember, m, decide_eq_true ne]; rfl⟩

/-- Every group of `r` comes from the group its line had in `r0`. -/
def Runtime.GroupsFrom (r0 r : Runtime) : Prop :=
  ∀ (k : LineIx) (g : Group), r.lines[k].slot = .group g → ∃ g0, r0.lines[k].slot = .group g0 ∧ g0.StepsFrom g

theorem Runtime.GroupsFrom.refl (r : Runtime) : r.GroupsFrom r := fun _ g h => ⟨g, h, .refl g⟩

theorem Runtime.GroupsFrom.trans {a b c : Runtime} (h : a.GroupsFrom b) (h' : b.GroupsFrom c) : a.GroupsFrom c :=
  fun k _ hg =>
    have ⟨_, hb, fromB⟩ := h' k _ hg
    have ⟨ga, ha, fromA⟩ := h k _ hb
    ⟨ga, ha, fromA.trans fromB⟩

theorem groupRecord_eq_some {l : LineRecord} {g : Group} : l.groupRecord = some g ↔ l.slot = .group g := by
  unfold LineRecord.groupRecord
  split <;> simp_all

section Groups

variable {r0 r : Runtime}

theorem Runtime.GroupsFrom.same {r' : Runtime} (h : r0.GroupsFrom r) (e : r'.lines = r.lines) : r0.GroupsFrom r' := by
  unfold Runtime.GroupsFrom
  rw [e]
  exact h

@[simp] theorem updUnit_groups (u : UnitIx) (f : UnitRecord → UnitRecord) (h : r0.GroupsFrom r) :
    r0.GroupsFrom (r.updUnit u f) := h.same (by simp)

@[simp] theorem closeInFlight_groups (u : UnitIx) (code : AnswerCode) (h : r0.GroupsFrom r) :
    r0.GroupsFrom (r.closeInFlight u code) := h.same (by simp)

/-- A line takes on a group that comes from its own. -/
theorem updLine_groups (k : LineIx) {f : LineRecord → LineRecord}
    (hf : ∀ g, (f r.lines[k]).slot = .group g → ∃ g0, r.lines[k].slot = .group g0 ∧ g0.StepsFrom g)
    (h : r0.GroupsFrom r) : r0.GroupsFrom (r.updLine k f) := by
  refine h.trans fun j g hg => ?_
  by_cases e : j = k
  · subst e
    rw [updLine_line] at hg
    exact hf g hg
  · rw [updLine_other e] at hg
    exact ⟨g, hg, .refl g⟩

theorem updLine_groups_of_slot (k : LineIx) {f : LineRecord → LineRecord} (hf : ∀ l, (f l).slot = l.slot)
    (h : r0.GroupsFrom r) : r0.GroupsFrom (r.updLine k f) :=
  updLine_groups k (fun g hg => ⟨g, (hf _).symm.trans hg, .refl g⟩) h

theorem setGroup_groups {k : LineIx} {g0 g : Group} (slot : r.lines[k].slot = .group g0) (steps : g0.StepsFrom g)
    (h : r0.GroupsFrom r) : r0.GroupsFrom (r.setGroup k g) :=
  updLine_groups k (fun g' hg => ⟨g0, slot, by
    obtain rfl : g = g' := by simpa using hg
    exact steps⟩) h

theorem abandon_slot (l : LineRecord) : l.abandon.slot = l.slot := by
  unfold LineRecord.abandon
  dsimp only
  split <;> rfl

theorem list_slot (u : UnitIx) (w : Work) (l : LineRecord) : (l.list u w).slot = l.slot := by
  unfold LineRecord.list
  split <;> rfl

theorem listGroup_slot (l : LineRecord) : l.listGroup.slot = l.slot := by
  unfold LineRecord.listGroup
  split <;> rfl

@[simp] theorem post_groups (u : UnitIx) (w : Work) (h : r0.GroupsFrom r) : r0.GroupsFrom (r.post u w) := by
  unfold Runtime.post
  split
  · exact updUnit_groups u _ h
  · exact updLine_groups_of_slot _ (list_slot u w) h

theorem eachUnit_groups {f : UnitIx → Runtime → Runtime} (hf : ∀ u (r : Runtime), r.GroupsFrom (f u r))
    (h : r0.GroupsFrom r) :
    r0.GroupsFrom (r.eachUnit f) :=
  h.trans (foldl_keeps_rel (R := Runtime.GroupsFrom) .refl .trans (act := fun r u => f u r) (fun u r => hf u r) _ r)

theorem freeSlot_clears (k : LineIx) (r : Runtime) : (r.updLine k LineRecord.clearSlot).GroupsFrom (r.freeSlot k) := by
  have cleared := Runtime.GroupsFrom.refl (r.updLine k LineRecord.clearSlot)
  refine eachUnit_groups (fun u r => ?_) (cleared.same rfl)
  split
  · exact post_groups _ _ (updUnit_groups _ _ (.refl r))
  · exact .refl r

@[simp] theorem freeSlot_groups (k : LineIx) (h : r0.GroupsFrom r) : r0.GroupsFrom (r.freeSlot k) :=
  (updLine_groups k (f := LineRecord.clearSlot) (fun _ hg => nomatch hg) h).trans (freeSlot_clears k r)

@[simp] theorem dissolve_groups (k : LineIx) (h : r0.GroupsFrom r) : r0.GroupsFrom (r.dissolve k) := by
  unfold Runtime.dissolve
  split
  · exact h
  · next g _ =>
    have steps : r.GroupsFrom (g.members.foldl (fun r m => r.updUnit m.unit fun x => { x with loadStep := .idle }) r) :=
      foldl_keeps_rel (R := Runtime.GroupsFrom) .refl .trans (fun m (r : Runtime) => updUnit_groups _ _ (.refl r)) _ _
    refine freeSlot_groups k (updLine_groups_of_slot k (fun l => ?_) (h.trans steps))
    dsimp only
    split
    · exact abandon_slot l
    · rfl

@[simp] theorem dissolveEmpty_groups (k : LineIx) (h : r0.GroupsFrom r) : r0.GroupsFrom (r.dissolveEmpty k) := by
  unfold Runtime.dissolveEmpty
  (repeat' split) <;> simp [h]

theorem takeOffGroup_line (k : LineIx) (u : UnitIx) (g : Group) (r : Runtime) :
    (r.takeOffGroup k u g).lines[k].slot = .group (g.without u) := by
  unfold Runtime.takeOffGroup
  rw [updLine_line]

theorem takeOffGroup_groups {k : LineIx} (u : UnitIx) {g : Group} (slot : r.lines[k].slot = .group g)
    (h : r0.GroupsFrom r) : r0.GroupsFrom (r.takeOffGroup k u g) :=
  updLine_groups k (fun g' hg => ⟨g, by rw [Runtime.updUnit_lines]; exact slot, by
    obtain rfl : g.without u = g' := by simpa using hg
    exact g.without_stepsFrom u⟩) (updUnit_groups u _ h)

theorem leaveGroup_groups (k : LineIx) (u : UnitIx) {act : Runtime → Runtime}
    (ha : ∀ r : Runtime, r.GroupsFrom (act r)) (h : r0.GroupsFrom r) : r0.GroupsFrom (r.leaveGroup k u act) := by
  unfold Runtime.leaveGroup
  split
  · exact h.trans (ha r)
  · next g record =>
    split
    · exact dissolveEmpty_groups k ((takeOffGroup_groups u (groupRecord_eq_some.1 record) h).trans (ha _))
    · exact h.trans (ha r)

/-- The line of a unit that is being withdrawn, its entry and its transaction gone (R132). -/
def LineRecord.withoutUnit (u : UnitIx) (l : LineRecord) : LineRecord :=
  if l.serves u then (l.unlist u).abandon else l.unlist u

theorem withoutUnit_slot (u : UnitIx) (l : LineRecord) : (l.withoutUnit u).slot = l.slot := by
  unfold LineRecord.withoutUnit
  split
  · exact abandon_slot _
  · rfl

/-- The runtime of a withdrawal before the slot of a load alone is freed. -/
def Runtime.unlisted (u : UnitIx) (r : Runtime) : Runtime :=
  ((r.updLine r.units[u].config.line (LineRecord.withoutUnit u)).leaveGroup r.units[u].config.line u id).updUnit u
    fun x => { x with heldWork := none, loadStep := .idle }

theorem withdraw_eq (u : UnitIx) (r : Runtime) :
    r.withdraw u =
      if (r.unlisted u).lines[r.units[u].config.line].slot = .alone u then (r.unlisted u).freeSlot r.units[u].config.line
      else r.unlisted u := rfl

theorem unlisted_groups (u : UnitIx) (h : r0.GroupsFrom r) : r0.GroupsFrom (r.unlisted u) :=
  updUnit_groups u _ (leaveGroup_groups _ u .refl (updLine_groups_of_slot _ (withoutUnit_slot u) h))

@[simp] theorem withdraw_groups (u : UnitIx) (h : r0.GroupsFrom r) : r0.GroupsFrom (r.withdraw u) := by
  rw [withdraw_eq]
  split
  · exact freeSlot_groups _ (unlisted_groups u h)
  · exact unlisted_groups u h

end Groups

/-! ### A round goes on (R162) -/

/-- A round that goes on ends, with no step left, or opens the transaction of its next step. -/
theorem resumeRound_cases (k : LineIx) (r : Runtime) :
    r.resumeRound k = r ∨ ∃ g, r.lines[k].slot = .group g
      ∧ (r.resumeRound k = r.endRound k
        ∨ ∃ step rest, g.todo = step :: rest ∧ r.resumeRound k =
            ((r.setGroup k { g with todo := rest }).openTxn k (r.groupTxn g step)).handAttempt k) := by
  unfold Runtime.resumeRound
  split
  · next g record =>
    split
    · next goes =>
      obtain ⟨-, -, idle⟩ := goes
      refine Or.inr ⟨g, groupRecord_eq_some.1 record, ?_⟩
      cases todo : g.todo with
      | nil => exact Or.inl rfl
      | cons step rest =>
        refine Or.inr ⟨step, rest, rfl, ?_⟩
        simp only [Runtime.runRound, record]
        rw [if_neg (by rw [idle]; simp)]
    · exact Or.inl rfl
  · exact Or.inl rfl

theorem askBlock_units (k : LineIx) (b : Nat) (first : Bool) (r : Runtime) : (r.askBlock k b first).units = r.units := by
  unfold Runtime.askBlock
  split <;> rfl

theorem askBlock_lines (k : LineIx) (b : Nat) (first : Bool) (r : Runtime) : (r.askBlock k b first).lines = r.lines := by
  unfold Runtime.askBlock
  split <;> rfl

theorem askNext_units (k : LineIx) (t : Transaction) (r : Runtime) : (r.askNext k t).units = r.units := by
  unfold Runtime.askNext
  (repeat' split) <;> first | exact askBlock_units _ _ _ _ | rfl

theorem askNext_lines (k : LineIx) (t : Transaction) (r : Runtime) : (r.askNext k t).lines = r.lines := by
  unfold Runtime.askNext
  (repeat' split) <;> first | exact askBlock_lines _ _ _ _ | rfl

theorem askNext_groups {r0 r : Runtime} (k : LineIx) (t : Transaction) (h : r0.GroupsFrom r) :
    r0.GroupsFrom (r.askNext k t) :=
  h.same (askNext_lines k t r)

@[simp] theorem handAttempt_units (k : LineIx) (r : Runtime) : (r.handAttempt k).units = r.units := by
  unfold Runtime.handAttempt Runtime.beginFrame
  dsimp only
  split
  · simp
  · split
    · simp
    · rw [askNext_units]
      simp

theorem handAttempt_groups {r0 r : Runtime} (k : LineIx) (h : r0.GroupsFrom r) : r0.GroupsFrom (r.handAttempt k) := by
  have made : r0.GroupsFrom (r.updLine k fun l => { l with txn := l.txn.map fun t => { t with made := t.made + 1 } }) :=
    updLine_groups_of_slot k (fun _ => rfl) h
  unfold Runtime.handAttempt Runtime.beginFrame
  dsimp only
  split
  · exact updLine_groups_of_slot k (fun _ => rfl) made
  · split
    · exact made
    · exact askNext_groups k _ (updLine_groups_of_slot k (fun _ => rfl) made)

theorem awaitBlock_units (k : LineIx) (b : Nat) (r : Runtime) : (r.awaitBlock k b).units = r.units := by
  unfold Runtime.awaitBlock
  split <;> simp

theorem awaitBlock_groups {r0 r : Runtime} (k : LineIx) (b : Nat) (h : r0.GroupsFrom r) :
    r0.GroupsFrom (r.awaitBlock k b) := by
  unfold Runtime.awaitBlock
  split
  · exact updLine_groups_of_slot k listGroup_slot h
  · exact updLine_groups_of_slot k (fun _ => rfl) h

theorem setGroup_units (k : LineIx) (g : Group) (r : Runtime) : (r.setGroup k g).units = r.units :=
  Runtime.updLine_units _ _ _

theorem repairOrEnd_units (k : LineIx) (g : Group) (r : Runtime) : (r.repairOrEnd k g).units = r.units := by
  unfold Runtime.repairOrEnd
  split
  · rw [awaitBlock_units, askBlock_units, setGroup_units]
  · rw [Runtime.updLine_units, setGroup_units]

theorem repairOrEnd_groups {r0 r : Runtime} {k : LineIx} {g0 g : Group} (slot : r.lines[k].slot = .group g0)
    (members : g.members = g0.members) (todo : g.todo = []) (h : r0.GroupsFrom r) : r0.GroupsFrom (r.repairOrEnd k g) := by
  have set : ∀ p, r0.GroupsFrom (r.setGroup k { g with phase := p }) := fun p =>
    setGroup_groups slot (Group.stepsFrom_of_nil members todo) h
  unfold Runtime.repairOrEnd
  split
  · exact awaitBlock_groups k _ ((set .repair).same (askBlock_lines k _ _ _))
  · exact updLine_groups_of_slot k listGroup_slot (set .ending)

theorem endRound_units (k : LineIx) (r : Runtime) : (r.endRound k).units = r.units := by
  unfold Runtime.endRound
  (repeat' (first | split | dsimp only)) <;>
    simp only [awaitBlock_units, repairOrEnd_units, setGroup_units, Runtime.updLine_units]

theorem endRound_groups {r0 r : Runtime} (k : LineIx) (h : r0.GroupsFrom r) : r0.GroupsFrom (r.endRound k) := by
  unfold Runtime.endRound
  split
  · exact h
  · next g record =>
    have slot := groupRecord_eq_some.1 record
    have set : ∀ p b, r0.GroupsFrom (r.setGroup k { g with inRound := false, todo := [], phase := p, block := b }) :=
      fun p b => setGroup_groups slot (Group.stepsFrom_of_nil rfl rfl) h
    have dropped : r0.GroupsFrom (r.updLine k (LineRecord.dropBlock g.block)) :=
      updLine_groups_of_slot k (fun _ => rfl) h
    have emptied : r0.GroupsFrom (r.updLine k fun l => { l with buffer0 := none, buffer1 := none }) :=
      updLine_groups_of_slot k (fun _ => rfl) h
    dsimp only
    split
    · exact awaitBlock_groups k 0 (set _ _)
    · split
      · refine awaitBlock_groups k _ (setGroup_groups (g0 := g) ?_ (Group.stepsFrom_of_nil rfl rfl) dropped)
        rw [updLine_line]
        exact slot
      · refine repairOrEnd_groups (g0 := g) ?_ rfl rfl dropped
        rw [updLine_line]
        exact slot
    · refine repairOrEnd_groups (g0 := g) ?_ rfl rfl emptied
      rw [updLine_line]
      exact slot
    · exact updLine_groups_of_slot k listGroup_slot (setGroup_groups slot (Group.stepsFrom_of_nil rfl rfl) h)

theorem openTxn_groups {r0 r : Runtime} (k : LineIx) (t : Transaction) (h : r0.GroupsFrom r) :
    r0.GroupsFrom (r.openTxn k t) := by
  have opened : r0.GroupsFrom (r.updLine k fun l => { l with latched := r.settings.lines[k], txn := some t }) :=
    updLine_groups_of_slot k (fun _ => rfl) h
  unfold Runtime.openTxn
  dsimp only
  split
  · exact opened
  · exact updUnit_groups _ _ opened

/-- A transaction that opens changes the record of the unit whose IMAGE_END it is alone (R161). -/
theorem openTxn_unit (k : LineIx) (t : Transaction) (u : UnitIx) (r : Runtime) :
    (r.openTxn k t).units[u] = r.units[u]
      ∨ endingUnit t = some u
        ∧ ∃ step, (r.openTxn k t).units[u] = { r.units[u] with run := .verifying, loadStep := step } := by
  unfold Runtime.openTxn
  dsimp only
  split
  · exact Or.inl (by rw [Runtime.updLine_units])
  · next v ending =>
    by_cases e : u = v
    · subst e
      refine Or.inr ⟨ending, if (r.units[u]).loadStep = .ending then .idle else (r.units[u]).loadStep, ?_⟩
      rw [updUnit_unit, Runtime.updLine_units]
    · exact Or.inl (by rw [updUnit_other e, Runtime.updLine_units])

theorem endingUnit_groupTxn {g : Group} {step : Option UnitIx} {u : UnitIx} {r : Runtime}
    (h : endingUnit (r.groupTxn g step) = some u) : step = some u := by
  cases step with
  | none => cases h
  | some v =>
    unfold endingUnit at h
    split at h
    · exact h
    · cases h

theorem resumeRound_groups {r0 r : Runtime} (k : LineIx) (h : r0.GroupsFrom r) : r0.GroupsFrom (r.resumeRound k) := by
  rcases resumeRound_cases k r with same | ⟨g, slot, ends | ⟨step, rest, todo, opens⟩⟩
  · rw [same]
    exact h
  · rw [ends]
    exact endRound_groups k h
  · rw [opens]
    exact handAttempt_groups k (openTxn_groups k _ (setGroup_groups slot (Group.stepsFrom_tail todo) h))

/-- The unit has no step to come of any round. -/
def Runtime.NoStep (u : UnitIx) (r : Runtime) : Prop :=
  ∀ (k : LineIx) (g : Group), r.lines[k].slot = .group g → some u ∉ g.todo

theorem Runtime.NoStep.kept {u : UnitIx} {r0 r : Runtime} (h : r0.NoStep u) (groups : r0.GroupsFrom r) : r.NoStep u :=
  fun k _ hg step =>
    have ⟨_, hg0, steps⟩ := groups k _ hg
    have ⟨step0, _⟩ := steps.steps u step
    h k _ hg0 step0

/-- A record is as it was but for its load step and its held work, and that the unit may have entered VERIFYING. -/
structure UnitRecord.Follows (x y : UnitRecord) : Prop where
  kept : y = { x with run := y.run, loadStep := y.loadStep, heldWork := y.heldWork }
  run : y.run = x.run ∨ y.run = .verifying

theorem UnitRecord.Follows.refl (x : UnitRecord) : x.Follows x := ⟨rfl, Or.inl rfl⟩

theorem UnitRecord.Follows.trans {x y z : UnitRecord} (h : x.Follows y) (h' : y.Follows z) : x.Follows z := by
  refine ⟨?_, h'.run.elim (fun e => e ▸ h.run) Or.inr⟩
  rw [h'.kept, h.kept]

theorem UnitRecord.Follows.field {α : Type} {x y : UnitRecord} (h : x.Follows y) (p : UnitRecord → α)
    (hp : ∀ x a b c, p { x with run := a, loadStep := b, heldWork := c } = p x) : p y = p x := by
  rw [h.kept]
  exact hp _ _ _ _

theorem UnitRecord.KeptFrom.follows {x y : UnitRecord} (h : x.KeptFrom y) : x.Follows y := by
  have run : y.run = x.run := h.field UnitRecord.run fun _ _ _ => rfl
  refine ⟨?_, Or.inl run⟩
  rw [run]
  exact h

/-- What stands of a unit while others lose their feed and rounds go on: no group gives it a new step, and it runs on as it
did where it has no step to come. -/
structure Runtime.Passes (u : UnitIx) (r0 r : Runtime) : Prop where
  groups : r0.GroupsFrom r
  unit : (r0.units[u]).Follows r.units[u]
  idle : r0.NoStep u → r.units[u].run = r0.units[u].run

theorem Runtime.Passes.refl (u : UnitIx) (r : Runtime) : r.Passes u r := ⟨.refl r, .refl _, fun _ => rfl⟩

theorem Runtime.Passes.trans {u : UnitIx} {a b c : Runtime} (h : a.Passes u b) (h' : b.Passes u c) : a.Passes u c :=
  ⟨h.groups.trans h'.groups, h.unit.trans h'.unit, fun n => (h'.idle (n.kept h.groups)).trans (h.idle n)⟩

theorem Runtime.Passes.same {u : UnitIx} {r0 r r' : Runtime} (h : r0.Passes u r) (hu : r'.units = r.units)
    (hl : r'.lines = r.lines) : r0.Passes u r' :=
  ⟨h.groups.same hl, hu ▸ h.unit, hu ▸ h.idle⟩

theorem passes_of_kept {u : UnitIx} {r0 r : Runtime} (groups : r0.GroupsFrom r)
    (unit : (r0.units[u]).KeptFrom r.units[u]) : r0.Passes u r :=
  ⟨groups, unit.follows, fun _ => unit.field UnitRecord.run fun _ _ _ => rfl⟩

/-- A round that goes on takes at most the unit of its next step into VERIFYING. -/
theorem resumeRound_passes (u : UnitIx) (k : LineIx) (r : Runtime) : r.Passes u (r.resumeRound k) := by
  have groups := resumeRound_groups k (.refl r)
  rcases resumeRound_cases k r with same | ⟨g, slot, ends | ⟨step, rest, todo, opens⟩⟩
  · rw [same]
    exact .refl u r
  · refine passes_of_kept groups ?_
    rw [ends, endRound_units]
    exact .refl _
  · have unit := openTxn_unit k (r.groupTxn g step) u (r.setGroup k { g with todo := rest })
    rw [setGroup_units] at unit
    rcases unit with same | ⟨ending, load, verifies⟩
    · refine passes_of_kept groups ?_
      rw [opens, handAttempt_units, same]
      exact .refl _
    · have own := endingUnit_groupTxn ending
      subst own
      refine ⟨groups, ?_, fun none => absurd (by rw [todo]; exact List.mem_cons_self) (none k g slot)⟩
      rw [opens, handAttempt_units, verifies]
      exact ⟨rfl, Or.inr rfl⟩

theorem resumeRounds_passes (u : UnitIx) (r : Runtime) : r.Passes u r.resumeRounds :=
  foldl_keeps_rel (R := Runtime.Passes u) (.refl u) .trans (fun k (r : Runtime) => resumeRound_passes u k r) _ _

end Machine

end Sys2Proof

/-! PROOFS. The feed requests and the trips (R59, R88, R95 to R98): what the left ON notice makes of each unit, then the
obligations that give it. -/

namespace Sys2Proof

namespace Machine

/-! ### The withdrawn unit has left its group (R162) -/

theorem not_member_of_dissolveEmpty {k : LineIx} {u : UnitIx} {r : Runtime} {g0 : Group}
    (slot : r.lines[k].slot = .group g0) (out : g0.isMember u = false) {g : Group}
    (h : (r.dissolveEmpty k).lines[k].slot = .group g) : g.isMember u = false := by
  obtain ⟨g1, slot1, from1⟩ := dissolveEmpty_groups k (.refl r) k g h
  obtain rfl : g0 = g1 := Slot.group.inj (slot.symm.trans slot1)
  exact Bool.eq_false_iff.2 fun m => Bool.eq_false_iff.1 out (from1.members u m)

theorem not_member_of_leaveGroup {k : LineIx} {u : UnitIx} {r : Runtime} {g : Group}
    (h : (r.leaveGroup k u id).lines[k].slot = .group g) : g.isMember u = false := by
  unfold Runtime.leaveGroup at h
  split at h
  · next record => exact absurd (groupRecord_eq_some.2 h) (by rw [id, record]; simp)
  · next g0 record =>
    split at h
    · refine not_member_of_dissolveEmpty (takeOffGroup_line k u g0 r) ?_ h
      simp [Group.without_isMember]
    · next other =>
      obtain rfl : g0 = g := Option.some.inj (record.symm.trans (groupRecord_eq_some.2 h))
      exact Bool.eq_false_iff.2 other

theorem not_member_of_withdraw {u : UnitIx} {r : Runtime} {g : Group}
    (h : (r.withdraw u).lines[r.units[u].config.line].slot = .group g) : g.isMember u = false := by
  have unlisted : ∀ g, (r.unlisted u).lines[r.units[u].config.line].slot = .group g → g.isMember u = false :=
    fun g h => not_member_of_leaveGroup (by rwa [Runtime.unlisted, Runtime.updUnit_lines] at h)
  rw [withdraw_eq] at h
  split at h
  · obtain ⟨g1, slot1, from1⟩ := freeSlot_groups _ (.refl _) _ g h
    exact Bool.eq_false_iff.2 fun m => Bool.eq_false_iff.1 (unlisted g1 slot1) (from1.members u m)
  · exact unlisted g h

/-! ### A unit loses its feed (R59) -/

/-- Power is gone: the unit is believed cold from here on (R59). -/
def UnitRecord.cold (x : UnitRecord) : UnitRecord := { x with forceCold := true }

/-- The run of a unit in service ends in WAIT_FEED (R59). -/
def UnitRecord.toWaitFeed (x : UnitRecord) : UnitRecord := { x.loadCut.stopTimers.feedCold with run := .waitFeed }

/-- The unit is in a run that the left ON notice ends. -/
def UnitRecord.InService (x : UnitRecord) : Prop :=
  x.run ≠ .unmanaged ∧ x.run ≠ .riding ∧ x.run ≠ .failed ∧ x.run ≠ .waitFeed

/-- The record of a unit after the left ON notice (R59). -/
def UnitRecord.lostFeed (x : UnitRecord) : UnitRecord :=
  match x.run with
  | .unmanaged => x
  | .riding | .failed => x.cold
  | .waitFeed => x.cold.feedCold
  | .probing | .running | .held | .checking | .attending | .loading | .verifying | .restoring =>
    if x.editOrRelease then x.cold.toWaitFeed.closed .cut else x.cold.toWaitFeed

/-- What the notice does to a unit in service, its request in flight apart (R59). -/
def Runtime.cutOff (u : UnitIx) (r : Runtime) : Runtime :=
  ((r.updUnit u UnitRecord.cold).withdraw u).updUnit u UnitRecord.toWaitFeed

/-- The left ON notice by the unit's run. -/
theorem loseFeed_cases (u : UnitIx) (r : Runtime) :
    r.units[u].run = .unmanaged ∧ r.loseFeed u = r
      ∨ (r.units[u].run = .riding ∨ r.units[u].run = .failed) ∧ r.loseFeed u = r.updUnit u UnitRecord.cold
      ∨ r.units[u].run = .waitFeed ∧ r.loseFeed u = (r.updUnit u UnitRecord.cold).updUnit u UnitRecord.feedCold
      ∨ (r.units[u]).InService
        ∧ r.loseFeed u = if (r.units[u]).editOrRelease then (r.cutOff u).closeInFlight u .cut else r.cutOff u := by
  unfold Runtime.loseFeed UnitRecord.InService
  dsimp only
  split
  case h_1 run => exact Or.inl ⟨run, rfl⟩
  case h_2 run => exact Or.inr (Or.inl ⟨Or.inl run, rfl⟩)
  case h_3 run => exact Or.inr (Or.inl ⟨Or.inr run, rfl⟩)
  case h_4 run => exact Or.inr (Or.inr (Or.inl ⟨run, rfl⟩))
  all_goals
    next run =>
      refine Or.inr (Or.inr (Or.inr ⟨?_, rfl⟩))
      rw [run]
      exact ⟨nofun, nofun, nofun, nofun⟩

theorem loseFeed_unmanaged {u : UnitIx} {r : Runtime} (h : r.units[u].run = .unmanaged) : r.loseFeed u = r := by
  unfold Runtime.loseFeed
  rw [h]

theorem lostFeed_inService {x : UnitRecord} (h : x.InService) :
    x.lostFeed = if x.editOrRelease then x.cold.toWaitFeed.closed .cut else x.cold.toWaitFeed := by
  obtain ⟨managed, riding, failed, waiting⟩ := h
  unfold UnitRecord.lostFeed
  split <;> first | contradiction | rfl

theorem UnitRecord.KeptFrom.loadCut {x y : UnitRecord} (h : x.KeptFrom y) : x.loadCut.KeptFrom y.loadCut := by
  rw [show y = _ from h]
  unfold UnitRecord.loadCut
  dsimp only
  split <;> rfl

theorem UnitRecord.KeptFrom.stopTimers {x y : UnitRecord} (h : x.KeptFrom y) : x.stopTimers.KeptFrom y.stopTimers := by
  rw [show y = _ from h]
  rfl

theorem UnitRecord.KeptFrom.feedCold {x y : UnitRecord} (h : x.KeptFrom y) : x.feedCold.KeptFrom y.feedCold := by
  rw [show y = _ from h]
  unfold UnitRecord.feedCold
  dsimp only
  split <;> rfl

theorem UnitRecord.KeptFrom.withRun {x y : UnitRecord} (h : x.KeptFrom y) (st : RunState) :
    UnitRecord.KeptFrom { x with run := st } { y with run := st } := by
  rw [show y = _ from h]
  rfl

theorem UnitRecord.KeptFrom.closed {x y : UnitRecord} (h : x.KeptFrom y) (code : AnswerCode) :
    (x.closed code).KeptFrom (y.closed code) := by
  rw [show y = _ from h]
  unfold UnitRecord.closed
  dsimp only
  split <;> rfl

theorem cutOff_unit (u : UnitIx) (r : Runtime) : ((r.units[u]).cold.toWaitFeed).KeptFrom (r.cutOff u).units[u] := by
  have kept := withdraw_keeps u (.refl (r.updUnit u UnitRecord.cold)) u
  rw [updUnit_unit] at kept
  unfold Runtime.cutOff
  rw [updUnit_unit]
  exact kept.loadCut.stopTimers.feedCold.withRun .waitFeed

/-- The unit's record after its notice, but for load step and held work. -/
theorem loseFeed_unit (u : UnitIx) (r : Runtime) : ((r.units[u]).lostFeed).KeptFrom (r.loseFeed u).units[u] := by
  rcases loseFeed_cases u r with ⟨run, lost⟩ | ⟨run, lost⟩ | ⟨run, lost⟩ | ⟨service, lost⟩
  · rw [lost, UnitRecord.lostFeed, run]
    exact .refl _
  · have own : (r.units[u]).lostFeed = (r.units[u]).cold := by
      unfold UnitRecord.lostFeed
      rcases run with run | run <;> rw [run]
    rw [lost, own, updUnit_unit]
    exact .refl _
  · rw [lost, updUnit_unit, updUnit_unit, UnitRecord.lostFeed, run]
    exact .refl _
  · rw [lost, lostFeed_inService service]
    split
    · rw [closeInFlight_unit]
      exact (cutOff_unit u r).closed .cut
    · exact cutOff_unit u r

theorem loseFeed_turn (u : UnitIx) (r : Runtime) : r.TurnOf u (r.loseFeed u) := by
  have cold := updUnit_turn UnitRecord.cold (.refl u r)
  rcases loseFeed_cases u r with ⟨-, lost⟩ | ⟨-, lost⟩ | ⟨-, lost⟩ | ⟨-, lost⟩ <;> rw [lost]
  · exact .refl u r
  · exact cold
  · exact updUnit_turn _ cold
  · have cut : r.TurnOf u (r.cutOff u) := updUnit_turn _ (withdraw_turn u cold)
    split
    · exact closeInFlight_turn .cut cut
    · exact cut

theorem cutOff_groups (u : UnitIx) (r : Runtime) : (r.updUnit u UnitRecord.cold |>.withdraw u).GroupsFrom (r.cutOff u) :=
  updUnit_groups u _ (.refl _)

theorem loseFeed_groups (u : UnitIx) (r : Runtime) : r.GroupsFrom (r.loseFeed u) := by
  have cold := updUnit_groups u UnitRecord.cold (.refl r)
  rcases loseFeed_cases u r with ⟨-, lost⟩ | ⟨-, lost⟩ | ⟨-, lost⟩ | ⟨-, lost⟩ <;> rw [lost]
  · exact .refl r
  · exact cold
  · exact updUnit_groups u _ cold
  · have cut := (withdraw_groups u cold).trans (cutOff_groups u r)
    split
    · exact closeInFlight_groups u .cut cut
    · exact cut

/-- A unit taken out of service is a member of no group of its line. -/
theorem not_member_of_loseFeed {u : UnitIx} {r : Runtime} (service : (r.units[u]).InService) {g : Group}
    (h : (r.loseFeed u).lines[r.units[u].config.line].slot = .group g) : g.isMember u = false := by
  obtain ⟨managed, riding, failed, waiting⟩ := service
  have line : ((r.updUnit u UnitRecord.cold).units[u]).config.line = r.units[u].config.line := by
    rw [updUnit_unit]
    rfl
  have from0 : (r.updUnit u UnitRecord.cold |>.withdraw u).GroupsFrom (r.loseFeed u) := by
    rcases loseFeed_cases u r with ⟨run, -⟩ | ⟨run, -⟩ | ⟨run, -⟩ | ⟨-, lost⟩
    · exact absurd run managed
    · exact (run.elim riding failed).elim
    · exact absurd run waiting
    · rw [lost]
      split
      · exact closeInFlight_groups u .cut (cutOff_groups u r)
      · exact cutOff_groups u r
  obtain ⟨g0, slot, members⟩ := from0 _ g h
  rw [← line] at slot
  exact Bool.eq_false_iff.2 fun m => Bool.eq_false_iff.1 (not_member_of_withdraw slot) (members.members u m)

/-! ### The notice of a feed, unit by unit (R59, R94, R162) -/

/-- A unit with a step to come of a round is loaded or verified as a member of its own line's group. -/
def Runtime.Steps (u : UnitIx) (r : Runtime) : Prop :=
  ∀ (k : LineIx) (g : Group), r.lines[k].slot = .group g → some u ∈ g.todo →
    (r.units[u].run = .loading ∨ r.units[u].run = .verifying) ∧ r.units[u].config.line = k ∧ g.isMember u = true

theorem Runtime.StepsOfItsGroup.steps {u : UnitIx} {r : Runtime} (h : r.StepsOfItsGroup u) : r.Steps u :=
  fun k g slot step =>
    have ⟨run, line, member⟩ := h k g slot step
    ⟨Or.inl run, line, member⟩

theorem Runtime.Passes.config {u : UnitIx} {r0 r : Runtime} (h : r0.Passes u r) : r.units[u].config = r0.units[u].config :=
  h.unit.field UnitRecord.config fun _ _ _ _ => rfl

theorem Runtime.Steps.kept {u : UnitIx} {r0 r : Runtime} (h : r0.Steps u) (passes : r0.Passes u r) : r.Steps u := by
  intro k g slot step
  obtain ⟨g0, slot0, from0⟩ := passes.groups k g slot
  obtain ⟨step0, member⟩ := from0.steps u step
  obtain ⟨run, line, member0⟩ := h k g0 slot0 step0
  refine ⟨?_, by rw [passes.config]; exact line, member member0⟩
  rcases passes.unit.run with same | verifies
  · rw [same]
    exact run
  · exact Or.inr verifies

theorem Runtime.Steps.noStep {u : UnitIx} {r : Runtime} (h : r.Steps u) (loading : r.units[u].run ≠ .loading)
    (verifying : r.units[u].run ≠ .verifying) : r.NoStep u := fun k g slot step =>
  have ⟨run, _, _⟩ := h k g slot step
  run.elim loading verifying

/-- A unit that has had its notice has no step to come. -/
theorem loseFeed_noStep {u : UnitIx} {r : Runtime} (h : r.Steps u) : (r.loseFeed u).NoStep u := by
  have groups := loseFeed_groups u r
  intro k g slot step
  obtain ⟨g0, slot0, from0⟩ := groups k g slot
  obtain ⟨step0, member⟩ := from0.steps u step
  obtain ⟨run, rfl, member0⟩ := h k g0 slot0 step0
  have service : (r.units[u]).InService := by
    unfold UnitRecord.InService
    rcases run with run | run <;> rw [run] <;> exact ⟨nofun, nofun, nofun, nofun⟩
  exact Bool.eq_false_iff.1 (not_member_of_loseFeed service slot) (member member0)

theorem loseFeed_passes {u v : UnitIx} (ne : u ≠ v) (r : Runtime) : r.Passes u (r.loseFeed v) :=
  passes_of_kept (loseFeed_groups v r) ((loseFeed_turn v r).others u ne)

/-- One unit's part of the notice of a feed. -/
def Runtime.leavesOn (f : FeedIx) (r : Runtime) (u : UnitIx) : Runtime :=
  if r.units[u].config.feed = f then r.loseFeed u else r

theorem leavesOn_passes {f : FeedIx} {u v : UnitIx} (ne : v ≠ u) (r : Runtime) : r.Passes u (r.leavesOn f v) := by
  unfold Runtime.leavesOn
  split
  · exact loseFeed_passes (Ne.symm ne) r
  · exact .refl u r

/-- The notice passes a unit by of which it finds, at its turn, that its own part changes nothing. -/
theorem leftOn_passes {f : FeedIx} {u : UnitIx} {r : Runtime} (own : ∀ r1, r.Passes u r1 → r1.leavesOn f u = r1) :
    r.Passes u (r.leftOn f) := by
  obtain ⟨r1, before, after⟩ := foldl_around (R := Runtime.Passes u) (.refl u) .trans
    (fun v ne r => leavesOn_passes (f := f) ne r) (List.nodup_finRange _) (List.mem_finRange u) r
  rw [own r1 before] at after
  exact (before.trans after).trans (resumeRounds_passes u _)

theorem leftOn_passes_other {f : FeedIx} {u : UnitIx} {r : Runtime} (h : r.units[u].config.feed ≠ f) :
    r.Passes u (r.leftOn f) :=
  leftOn_passes fun r1 before => if_neg (by rw [before.config]; exact h)

/-- An unmanaged unit with no step to come stays unmanaged. -/
theorem leftOn_unmanaged {f : FeedIx} {u : UnitIx} {r : Runtime} (run : r.units[u].run = .unmanaged) (idle : r.NoStep u) :
    (r.leftOn f).units[u].run = .unmanaged := by
  have passes : r.Passes u (r.leftOn f) := leftOn_passes fun r1 before => by
    unfold Runtime.leavesOn
    rw [loseFeed_unmanaged ((before.idle idle).trans run), ite_self]
  exact (passes.idle idle).trans run

/-- A unit of the feed meets its own notice between those of the others. -/
theorem leftOn_own {f : FeedIx} {u : UnitIx} {r : Runtime} (h : r.units[u].config.feed = f) :
    ∃ r1, r.Passes u r1 ∧ (r1.loseFeed u).Passes u (r.leftOn f) := by
  obtain ⟨r1, before, after⟩ := foldl_around (R := Runtime.Passes u) (.refl u) .trans
    (fun v ne r => leavesOn_passes (f := f) ne r) (List.nodup_finRange _) (List.mem_finRange u) r
  have own : r1.leavesOn f u = r1.loseFeed u := if_pos (by rw [before.config]; exact h)
  rw [own] at after
  exact ⟨r1, before, after.trans (resumeRounds_passes u _)⟩

/-! ### What the notice makes of a managed unit (R59) -/

theorem UnitRecord.LeftOn.follows {x y z : UnitRecord} (h : x.LeftOn y) (later : y.Follows z) (run : z.run = y.run) :
    x.LeftOn z := by
  rw [later.kept, run]
  exact h

/-- A round may have taken a unit in LOADING into VERIFYING before its notice. -/
theorem UnitRecord.LeftOn.of_follows {x y z : UnitRecord} (h : y.LeftOn z) (before : x.Follows y)
    (run : y.run = x.run ∨ x.run = .loading ∧ y.run = .verifying) : x.LeftOn z := by
  rcases run with same | ⟨loading, verifying⟩
  · rw [before.kept, same] at h
    exact h
  · obtain ⟨cold, context, seq, probe, -, ends, -, cuts⟩ := h
    rw [before.kept, verifying] at context seq probe ends cuts
    obtain ⟨waits, keeps, derives⟩ := ends nofun nofun
    obtain ⟨boot, attend, poll, image, flight⟩ := cuts nofun nofun nofun
    refine ⟨cold, context, seq, probe, fun e => ?_, fun _ _ => ⟨waits, keeps, derives⟩, fun e => ?_,
      fun _ _ _ => ⟨boot, attend, poll, fun _ => image (Or.inr rfl), flight⟩⟩
    · rw [loading] at e
      exact e.elim nofun nofun
    · rw [loading] at e
      cases e

theorem editOrRelease_eq_true {x : UnitRecord} {q : InFlight} (flight : x.inFlight = some q) :
    x.editOrRelease = true ↔ q.request = .contextEdit ∨ q.request = .releaseDoor := by
  simp [UnitRecord.editOrRelease, flight]

theorem closed_some {x : UnitRecord} {q : InFlight} (flight : x.inFlight = some q) (code : AnswerCode) :
    x.closed code = { x with inFlight := none, answerTag := q.tag, answerCode := code } := by
  unfold UnitRecord.closed
  rw [flight]

/-- A notice leaves the context and the probe's mark, and the class goes cold but where the probe is pending. -/
theorem feedCold_class (x : UnitRecord) :
    (x.probePending = true → x.feedCold = x)
      ∧ (x.probePending = false → x.feedCold = { x with runClass := .cold, origin := .derived }) := by
  unfold UnitRecord.feedCold
  exact ⟨fun probe => if_pos probe, fun probe => if_neg (by rw [probe]; nofun)⟩

/-- What a unit taken out of service keeps, and what it loses (R59). -/
theorem toWaitFeed_kept (x : UnitRecord) :
    x.toWaitFeed.forceCold = x.forceCold ∧ x.toWaitFeed.context = x.context ∧ x.toWaitFeed.contextSeq = x.contextSeq
      ∧ x.toWaitFeed.probePending = x.probePending ∧ x.toWaitFeed.inFlight = x.inFlight ∧ x.toWaitFeed.run = .waitFeed
      ∧ x.toWaitFeed.bootTimer = none ∧ x.toWaitFeed.attendTimer = none ∧ x.toWaitFeed.pollTimer = none := by
  unfold UnitRecord.toWaitFeed UnitRecord.feedCold UnitRecord.loadCut
  (repeat' split) <;> exact ⟨rfl, rfl, rfl, rfl, rfl, rfl, rfl, rfl, rfl⟩

theorem toWaitFeed_imageValid {x : UnitRecord} (h : x.run = .loading ∨ x.run = .verifying) :
    x.toWaitFeed.imageValid = false := by
  unfold UnitRecord.toWaitFeed UnitRecord.feedCold UnitRecord.loadCut
  rw [if_pos h]
  split <;> rfl

theorem toWaitFeed_class (x : UnitRecord) :
    (x.probePending = true → x.toWaitFeed.runClass = x.runClass)
      ∧ (x.probePending = false → x.toWaitFeed.runClass = .cold ∧ x.toWaitFeed.origin = .derived) := by
  have cut : x.loadCut.stopTimers.probePending = x.probePending ∧ x.loadCut.stopTimers.runClass = x.runClass := by
    unfold UnitRecord.loadCut
    split <;> exact ⟨rfl, rfl⟩
  obtain ⟨samePending, sameClass⟩ := cut
  obtain ⟨pending, derived⟩ := feedCold_class x.loadCut.stopTimers
  rw [samePending] at pending derived
  unfold UnitRecord.toWaitFeed
  refine ⟨fun probe => ?_, fun probe => ?_⟩
  · rw [pending probe]
    exact sameClass
  · rw [derived probe]
    exact ⟨rfl, rfl⟩

/-- The answer to a request in flight changes nothing else of the record. -/
theorem closed_kept (code : AnswerCode) (x : UnitRecord) :
    x.closed code = { x with
      inFlight := (x.closed code).inFlight, answerTag := (x.closed code).answerTag
      answerCode := (x.closed code).answerCode } := by
  unfold UnitRecord.closed
  split <;> rfl

/-- The notice answers the unit's edit or release alone (R59). -/
theorem lostFeed_inFlight {x : UnitRecord} (h : x.InService) {q : InFlight} (flight : x.inFlight = some q) :
    if q.request = .contextEdit ∨ q.request = .releaseDoor then x.lostFeed.Answered q .cut
      else x.lostFeed.inFlight = some q := by
  obtain ⟨-, -, -, -, same, -⟩ := toWaitFeed_kept x.cold
  have kept : x.cold.toWaitFeed.inFlight = some q := same.trans flight
  rw [lostFeed_inService h]
  by_cases edit : q.request = .contextEdit ∨ q.request = .releaseDoor
  · rw [if_pos edit, if_pos ((editOrRelease_eq_true flight).2 edit), closed_some kept]
    exact ⟨rfl, rfl, rfl⟩
  · rw [if_neg edit, if_neg (mt (editOrRelease_eq_true flight).1 edit)]
    exact kept

theorem lostFeed_toWaitFeed {x : UnitRecord} (h : x.InService) :
    x.lostFeed = { x.cold.toWaitFeed with
      inFlight := x.lostFeed.inFlight, answerTag := x.lostFeed.answerTag, answerCode := x.lostFeed.answerCode } := by
  rw [lostFeed_inService h]
  split
  · exact closed_kept .cut _
  · rfl

theorem outOfService_leftOn {x : UnitRecord} (h : x.InService) : x.LeftOn x.lostFeed := by
  have answered := fun q => lostFeed_inFlight h (q := q)
  obtain ⟨cold, context, seq, probe, -, run, boot, attend, poll⟩ := toWaitFeed_kept x.cold
  obtain ⟨pending, derived⟩ := toWaitFeed_class x.cold
  have image := toWaitFeed_imageValid (x := x.cold)
  rw [lostFeed_toWaitFeed h] at answered ⊢
  obtain ⟨-, riding, failed, waiting⟩ := h
  exact ⟨cold, context, seq, probe, fun e => (e.elim riding failed).elim, fun _ _ => ⟨run, pending, derived⟩,
    fun e => absurd e waiting, fun _ _ _ => ⟨boot, attend, poll, image, answered⟩⟩

theorem lostFeed_resting {x : UnitRecord} (h : x.run = .riding ∨ x.run = .failed) : x.lostFeed = x.cold := by
  unfold UnitRecord.lostFeed
  rcases h with run | run <;> rw [run]

theorem lostFeed_waiting {x : UnitRecord} (h : x.run = .waitFeed) : x.lostFeed = x.cold.feedCold := by
  unfold UnitRecord.lostFeed
  rw [h]

theorem waiting_leftOn {x : UnitRecord} (h : x.run = .waitFeed) : x.LeftOn x.lostFeed := by
  have kept : x.cold.feedCold = { x.cold with runClass := x.cold.feedCold.runClass, origin := x.cold.feedCold.origin } := by
    unfold UnitRecord.feedCold
    split <;> rfl
  obtain ⟨pending, derived⟩ := feedCold_class x.cold
  have cls : (x.probePending = true → x.cold.feedCold.runClass = x.runClass)
      ∧ (x.probePending = false → x.cold.feedCold.runClass = .cold ∧ x.cold.feedCold.origin = .derived) :=
    ⟨fun probe => by rw [pending probe]; rfl, fun probe => by rw [derived probe]; exact ⟨rfl, rfl⟩⟩
  rw [lostFeed_waiting h, kept]
  exact ⟨rfl, rfl, rfl, rfl, fun e => ⟨rfl, by rw [h] at e; exact e.elim nofun nofun, rfl⟩, fun _ _ => ⟨h, cls⟩,
    fun _ => rfl, fun _ _ other => absurd h other⟩

/-- A managed unit takes the left ON notice of its feed as R59 says. -/
theorem lostFeed_leftOn {x : UnitRecord} (managed : x.run ≠ .unmanaged) : x.LeftOn x.lostFeed := by
  by_cases resting : x.run = .riding ∨ x.run = .failed
  · rw [lostFeed_resting resting]
    refine ⟨rfl, rfl, rfl, rfl, fun _ => ⟨rfl, rfl, rfl⟩, fun riding failed => ?_, fun _ => rfl, fun riding failed => ?_⟩ <;>
      exact (resting.elim riding failed).elim
  · by_cases waiting : x.run = .waitFeed
    · exact waiting_leftOn waiting
    · exact outOfService_leftOn ⟨managed, fun e => resting (Or.inl e), fun e => resting (Or.inr e), waiting⟩

theorem Runtime.Passes.run_of_steps {u : UnitIx} {r0 r : Runtime} (h : r0.Passes u r) (steps : r0.Steps u) :
    r.units[u].run = r0.units[u].run ∨ r0.units[u].run = .loading ∧ r.units[u].run = .verifying := by
  rcases h.unit.run with same | verifies
  · exact Or.inl same
  · by_cases loading : r0.units[u].run = .loading
    · exact Or.inr ⟨loading, verifies⟩
    · by_cases verifying : r0.units[u].run = .verifying
      · exact Or.inl (verifies.trans verifying.symm)
      · exact Or.inl (h.idle (steps.noStep loading verifying))

/-- The left ON notice of its feed makes of a managed unit what R59 says. -/
theorem leftOn_leftOn {f : FeedIx} {u : UnitIx} {r : Runtime} (feed : r.units[u].config.feed = f)
    (managed : r.units[u].run ≠ .unmanaged) (steps : r.Steps u) :
    (r.units[u]).LeftOn (r.leftOn f).units[u] := by
  obtain ⟨r1, before, after⟩ := leftOn_own feed
  have run := before.run_of_steps steps
  have managed1 : r1.units[u].run ≠ .unmanaged := by
    rcases run with same | ⟨-, verifying⟩
    · rwa [same]
    · rw [verifying]
      nofun
  have lost := (loseFeed_unit u r1).follows
  have lostRun := (loseFeed_unit u r1).field UnitRecord.run fun _ _ _ => rfl
  exact (((lostFeed_leftOn managed1).follows lost lostRun).follows after.unit
    (after.idle (loseFeed_noStep (steps.kept before)))).of_follows before.unit run

theorem feedCold_config (x : UnitRecord) : x.feedCold.config = x.config := by
  unfold UnitRecord.feedCold
  split <;> rfl

theorem toWaitFeed_config (x : UnitRecord) : x.toWaitFeed.config = x.config := by
  have cut : x.loadCut.config = x.config := by
    unfold UnitRecord.loadCut
    split <;> rfl
  exact (feedCold_config _).trans cut

theorem lostFeed_config (x : UnitRecord) : x.lostFeed.config = x.config := by
  by_cases unmanaged : x.run = .unmanaged
  · rw [UnitRecord.lostFeed, unmanaged]
  · by_cases resting : x.run = .riding ∨ x.run = .failed
    · rw [lostFeed_resting resting]
      rfl
    · by_cases waiting : x.run = .waitFeed
      · rw [lostFeed_waiting waiting, feedCold_config]
        rfl
      · rw [lostFeed_toWaitFeed ⟨unmanaged, fun e => resting (Or.inl e), fun e => resting (Or.inr e), waiting⟩]
        exact toWaitFeed_config x.cold

theorem leftOn_config {f : FeedIx} {u : UnitIx} {r : Runtime} (feed : r.units[u].config.feed = f) :
    (r.leftOn f).units[u].config = r.units[u].config := by
  obtain ⟨r1, before, after⟩ := leftOn_own feed
  rw [after.config, (loseFeed_unit u r1).field UnitRecord.config fun _ _ _ => rfl, lostFeed_config, before.config]

theorem leftOn_noStep {f : FeedIx} {u : UnitIx} {r : Runtime} (feed : r.units[u].config.feed = f) (steps : r.Steps u) :
    (r.leftOn f).NoStep u := by
  obtain ⟨r1, before, after⟩ := leftOn_own feed
  exact (loseFeed_noStep (steps.kept before)).kept after.groups

theorem leftOn_forceCold {f : FeedIx} {u : UnitIx} {r : Runtime} (feed : r.units[u].config.feed = f)
    (managed : r.units[u].run ≠ .unmanaged) : (r.leftOn f).units[u].forceCold = true := by
  obtain ⟨r1, before, after⟩ := leftOn_own feed
  have managed1 : r1.units[u].run ≠ .unmanaged := by
    rcases before.unit.run with same | verifying
    · rwa [same]
    · rw [verifying]
      nofun
  obtain ⟨cold, -⟩ := lostFeed_leftOn managed1
  rw [after.unit.field UnitRecord.forceCold fun _ _ _ _ => rfl,
    (loseFeed_unit u r1).field UnitRecord.forceCold fun _ _ _ => rfl]
  exact cold

/-! ### The feeds while another waits, leaves or is admitted (R81 to R86) -/

theorem consider_not_listed {fc : FeedControl} {f : FeedIx} (up : Bool) (h : f ∉ fc.admission) :
    (fc.consider up).feed[f] = fc.feed[f] := by
  rcases consider_feed up fc f with same | ⟨listed, -⟩
  · exact same
  · exact absurd listed h

theorem considerN_admission (n : Nat) (fc : FeedControl) {g : FeedIx} (h : g ∈ (fc.considerN n).admission) :
    g ∈ fc.admission := by
  induction n generalizing fc with
  | zero => exact h
  | succ n ih =>
    rcases considerN_succ n fc with ends | ⟨f, -, admits⟩
    · rwa [ends] at h
    · rw [admits] at h
      exact List.mem_of_mem_erase (ih _ h)

theorem consider_admission (up : Bool) (fc : FeedControl) {g : FeedIx} (h : g ∈ (fc.consider up).admission) :
    g ∈ fc.admission := by
  unfold FeedControl.consider at h
  split at h
  · exact considerN_admission _ fc h
  · exact h

theorem settleBudget_kept (fc : FeedControl) :
    fc.settleBudget.feed = fc.feed ∧ fc.settleBudget.admission = fc.admission := by
  unfold FeedControl.settleBudget
  (repeat' split) <;> exact ⟨rfl, rfl⟩

theorem afterLeave_not_listed {fc : FeedControl} {f : FeedIx} (up : Bool) (h : f ∉ fc.admission) :
    (fc.afterLeave up).feed[f] = fc.feed[f] ∧ f ∉ (fc.afterLeave up).admission := by
  obtain ⟨feed, admission⟩ := settleBudget_kept fc
  have out : f ∉ fc.settleBudget.admission := by rwa [admission]
  unfold FeedControl.afterLeave
  refine ⟨?_, fun listed => out (consider_admission up _ listed)⟩
  rw [consider_not_listed up out, feed]

/-- Admission keeps the trip count of every feed. -/
theorem considerN_tripCount (n : Nat) (fc : FeedControl) (f : FeedIx) :
    (fc.considerN n).feed[f].tripCount = fc.feed[f].tripCount := by
  induction n generalizing fc with
  | zero => rfl
  | succ n ih =>
    rcases considerN_succ n fc with ends | ⟨g, -, admits⟩
    · rw [ends]
    · rw [admits, ih]
      by_cases e : f = g
      · subst e
        simp [FeedControl.admitFeed, FeedControl.upd]
      · rw [admitFeed_other e]

theorem consider_tripCount (up : Bool) (fc : FeedControl) (f : FeedIx) :
    (fc.consider up).feed[f].tripCount = fc.feed[f].tripCount := by
  unfold FeedControl.consider
  split
  · exact considerN_tripCount _ fc f
  · rfl

/-- A feed that joins waits, or is admitted at once. -/
theorem join_consider_state (up : Bool) (f : FeedIx) (fc : FeedControl) :
    ((fc.join f).consider up).feed[f].state = .waiting
      ∨ up = true ∧ ((fc.join f).consider up).feed[f].state = .softstart := by
  cases up with
  | false => exact Or.inl (by rw [FeedControl.consider, if_neg nofun, join_own])
  | true =>
    rcases consider_feed true (fc.join f) f with same | ⟨-, starts⟩
    · exact Or.inl (by rw [same, join_own])
    · exact Or.inr ⟨rfl, starts⟩

/-! ### The answers to the feed requests (R95 to R98) -/

/-- A feed switched off, off the admission list (R97). -/
def FeedControl.off (f : FeedIx) (fc : FeedControl) : FeedControl :=
  FeedControl.upd f (fun x => { x with state := .off, mainOn := false }) { fc with admission := fc.admission.erase f }

theorem off_feed (f : FeedIx) (fc : FeedControl) :
    (fc.off f).feed[f] = { fc.feed[f] with state := .off, mainOn := false } := by
  simp [FeedControl.off, FeedControl.upd]

theorem switchOff_feed {fc : FeedControl} (listed : fc.ListsTheWaiting) (up : Bool) (f : FeedIx) :
    (fc.switchOff up f).feed[f] = { fc.feed[f] with state := .off, mainOn := false }
      ∧ f ∉ (fc.switchOff up f).admission := by
  obtain ⟨nodup, -⟩ := listed
  have out : f ∉ (fc.off f).admission := nodup.not_mem_erase
  rw [← off_feed]
  unfold FeedControl.switchOff
  dsimp only
  split
  · exact ⟨consider_not_listed up out, fun h => out (consider_admission up _ h)⟩
  · exact afterLeave_not_listed up out
  · exact ⟨rfl, out⟩

theorem take_on_off {up : Bool} {f : FeedIx} {fc : FeedControl} (h : fc.feed[f].state = .off) :
    fc.take up f (some .on) = ((fc.join f).consider up, .done) := by
  unfold FeedControl.take FeedControl.switchOn
  simp only [h]

theorem take_on_served {up : Bool} {f : FeedIx} {fc : FeedControl}
    (h : fc.feed[f].state = .waiting ∨ fc.feed[f].state = .softstart ∨ fc.feed[f].state = .on) :
    fc.take up f (some .on) = (fc, .done) := by
  unfold FeedControl.take FeedControl.switchOn
  rcases h with h | h | h <;> simp only [h]

theorem take_on_refused {up : Bool} {f : FeedIx} {fc : FeedControl}
    (h : fc.feed[f].state = .shed ∨ fc.feed[f].state = .tripped ∨ fc.feed[f].state = .lockedOff) :
    fc.take up f (some .on) = (fc, .refusedState) := by
  unfold FeedControl.take FeedControl.switchOn
  rcases h with h | h | h <;> simp only [h]

theorem take_clear_released {up : Bool} {f : FeedIx} {fc : FeedControl} (h : fc.feed[f].state = .lockedOff)
    (inactive : fc.feed[f].faultActive = false) :
    fc.take up f (some .clear) = (((fc.upd f fun x => { x with tripCount := 0 }).join f).consider up, .done) := by
  unfold FeedControl.take FeedControl.clear
  simp only [h, inactive, if_true]
  rfl

/-! ### What a feed change hands (R99, R190) -/

theorem Runtime.SameButQueue.refl (r : Runtime) : r.SameButQueue r := rfl

theorem Runtime.SameButQueue.trans {a b c : Runtime} (h : a.SameButQueue b) (h' : b.SameButQueue c) : a.SameButQueue c := by
  rw [show c = _ from h', show b = _ from h]
  rfl

theorem enqueue_same (i : Item) (r : Runtime) : r.SameButQueue (r.enqueue i) := by
  unfold Runtime.enqueue
  (repeat' split) <;> rfl

theorem handFeeds_same (old new : FeedControl) (r : Runtime) : r.SameButQueue (r.handFeeds old new) := by
  have fold : r.SameButQueue ((List.finRange Config.feeds).foldl
      (fun r f => if feedStatus new.feed[f] = feedStatus old.feed[f] then r else r.enqueue (.feedStatus f)) r) := by
    refine foldl_keeps_rel (R := Runtime.SameButQueue) .refl .trans (fun f (r : Runtime) => ?_) _ r
    split
    · exact .refl r
    · exact enqueue_same _ r
  unfold Runtime.handFeeds
  dsimp only
  split
  · exact fold.trans (enqueue_same _ _)
  · exact fold

/-- A feed whose status changes has its item queued. -/
theorem mem_handFeeds {old new : FeedControl} {f : FeedIx} {r : Runtime} (mode : r.mode ≠ .stopped)
    (changed : feedStatus new.feed[f] ≠ feedStatus old.feed[f]) : Item.feedStatus f ∈ (r.handFeeds old new).queue := by
  obtain ⟨r1, before, after⟩ := foldl_around (R := Runtime.Extends) .refl .trans
    (act := fun r g => if feedStatus new.feed[g] = feedStatus old.feed[g] then r else r.enqueue (.feedStatus g)) (i := f)
    (fun g _ r => ite_extends _ (.refl r) (enqueue_extends _ (.refl r))) (List.nodup_finRange _) (List.mem_finRange f) r
  have own : Item.feedStatus f ∈ (r1.enqueue (.feedStatus f)).queue :=
    mem_enqueue _ _ (by rw [before.mode]; exact mode)
  rw [if_neg changed] at after
  unfold Runtime.handFeeds
  dsimp only
  split
  · exact (enqueue_extends _ (.refl _)).mem (after.mem own)
  · exact after.mem own

/-! ### A feed request is answered (R95 to R98) -/

theorem served_iff (x : FeedRecord) : x.served = true ↔ x.state = .softstart ∨ x.state = .on := decide_eq_true_iff

/-- A feed request that gives no notice. -/
def State.answersFeed (f : FeedIx) (q : Option FeedRequest) (tag : Byte) (s : State) : State :=
  (s.setFeeds ((s.feeds.take s.supplyUp f q).1.answer f tag (s.feeds.take s.supplyUp f q).2)).onRt
    (Runtime.enqueue (.feedStatus f))

theorem feedRequest_eq (f : FeedIx) (q : Option FeedRequest) (tag : Byte) (s : State) :
    s.feedRequest f q tag =
      if q = some .off ∧ (s.feeds.feed[f]).served then (s.answersFeed f q tag).onRt (Runtime.leftOn f)
      else s.answersFeed f q tag := rfl

theorem answersFeed_frame (f : FeedIx) (q : Option FeedRequest) (tag : Byte) (s : State) :
    (s.answersFeed f q tag).feeds = { (s.feeds.take s.supplyUp f q).1 with
          feed := (s.feeds.take s.supplyUp f q).1.feed.set f
            { (s.feeds.take s.supplyUp f q).1.feed[f] with
              answerTag := tag, answerCode := (s.feeds.take s.supplyUp f q).2 } }
      ∧ (s.answersFeed f q tag).monitor = s.monitor ∧ (s.answersFeed f q tag).clock = s.clock
      ∧ (s.answersFeed f q tag).port = s.port ∧ (s.answersFeed f q tag).due = s.due
      ∧ (s.answersFeed f q tag).pending = s.pending :=
  ⟨rfl, rfl, rfl, rfl, rfl, rfl⟩

theorem answersFeed_same (f : FeedIx) (q : Option FeedRequest) (tag : Byte) (s : State) :
    s.rt.SameButQueue (s.answersFeed f q tag).rt :=
  (handFeeds_same _ _ s.rt).trans (enqueue_same _ _)

theorem answersFeed_queued {f : FeedIx} {q : Option FeedRequest} {tag : Byte} {s : State} (mode : s.rt.mode ≠ .stopped) :
    Item.feedStatus f ∈ (s.answersFeed f q tag).rt.queue :=
  mem_enqueue _ _ (by rw [State.setFeeds_rt, Runtime.handFeeds_mode]; exact mode)

/-- Settles O24: the table of the answers by the feed's state, then what the request hands and the notice it gives. -/
theorem feedRequestAnswers : Obligations.FeedRequestAnswers := by
  refine ⟨fun up f fc listed => ?answers, fun f q tag s => ?effects⟩
  case answers =>
    obtain ⟨off, out⟩ := switchOff_feed listed up f
    refine ⟨rfl, fun state => ?_, take_on_served, take_on_refused, rfl, off, out, fun state => ?_, fun state active => ?_,
      fun state inactive => ?_⟩
    · rw [take_on_off state]
      exact ⟨rfl, fun down => by rw [down]; rfl, join_consider_state up f fc⟩
    · unfold FeedControl.take FeedControl.clear
      exact if_neg state
    · unfold FeedControl.take FeedControl.clear
      dsimp only
      rw [if_pos state, if_pos active]
    · rw [take_clear_released state inactive]
      refine ⟨rfl, ?_, join_consider_state up f _⟩
      dsimp only
      rw [consider_tripCount, join_own]
      simp [FeedControl.upd]
  case effects =>
    have same := answersFeed_same f q tag s
    have queued := answersFeed_queued (f := f) (q := q) (tag := tag) (s := s)
    have frame := answersFeed_frame f q tag s
    dsimp only
    rw [feedRequest_eq]
    generalize s.answersFeed f q tag = x at same queued frame ⊢
    obtain ⟨feeds, monitor, clock, port, due, pending⟩ := frame
    have unit : ∀ u : UnitIx, s.rt.units[u] = x.rt.units[u] := by
      rw [show x.rt = _ from same]
      exact fun _ => rfl
    have steps : ∀ u, s.rt.StepsOfItsGroup u → x.rt.StepsOfItsGroup u := by
      rw [show x.rt = _ from same]
      exact fun _ h => h
    by_cases notice : q = some .off ∧ (s.feeds.feed[f]).served = true
    · rw [if_pos notice]
      have kept : s.rt.mode ≠ .stopped → Item.feedStatus f ∈ (x.rt.leftOn f).queue := fun mode =>
        (leftOn_extends f (.refl x.rt)).mem (queued mode)
      simp only [State.onRt_feeds, State.onRt_monitor, State.onRt_clock, State.onRt_port, State.onRt_due,
        State.onRt_pending, State.onRt_rt]
      refine ⟨feeds, kept, monitor, clock, port, due, pending, fun other => ?_,
        fun _ _ u => ⟨fun feed managed alone => ?_, fun unmanaged alone => ?_⟩⟩
      · obtain ⟨off, served⟩ := notice
        rcases other with other | ⟨softstart, on⟩
        · exact absurd off other
        · exact (((served_iff _).1 served).elim softstart on).elim
      · rw [unit] at feed managed ⊢
        exact leftOn_leftOn feed managed (steps u alone).steps
      · rw [unit] at unmanaged
        exact leftOn_unmanaged unmanaged
          ((steps u alone).steps.noStep (by rw [unmanaged]; nofun) (by rw [unmanaged]; nofun))
    · rw [if_neg notice]
      refine ⟨feeds, queued, monitor, clock, port, due, pending, fun _ => same, fun off served => ?_⟩
      exact absurd ⟨off, (served_iff _).2 served⟩ notice

end Machine

end Sys2Proof

/-! PROOFS. A feed whose fault is accepted trips on that tick (R59, R86 to R88, R94): its own turn among the trips of
the tick, then what the Supply Monitor's part of the tick leaves of it. -/

namespace Sys2Proof

namespace Machine

/-! ### The sample that accepts the fault (R87, R88) -/

theorem sample_kept (level : Bool) (x : FeedRecord) :
    x.sample level = { x with
      faultActive := (x.sample level).faultActive, faultDiffering := (x.sample level).faultDiffering } := by
  unfold FeedRecord.sample
  (repeat' split) <;> rfl

/-- The second of two active samples accepts the fault, and one inactive sample does not take it back (R87). -/
theorem sample_faultActive {level : Bool} {x : FeedRecord}
    (h : if level = true then x.faultActive = true ∧ x.faultDiffering = false
      else x.faultActive = true ∨ x.faultDiffering = true) : (x.sample level).faultActive = true := by
  unfold FeedRecord.sample
  cases level with
  | true =>
    obtain ⟨active, agreeing⟩ := h
    rw [if_neg (show ¬ (!true) = x.faultActive by rw [active]; nofun), if_neg (by rw [agreeing]; nofun)]
    exact active
  | false =>
    by_cases active : x.faultActive = true
    · rw [if_pos (show (!false) = x.faultActive from active.symm)]
      exact active
    · have differing : x.faultDiffering = true := (show x.faultActive = true ∨ _ from h).resolve_left active
      rw [if_neg (show ¬ (!false) = x.faultActive from fun e => active e.symm), if_pos differing]
      rfl

/-- A feed that trips on this tick is as the sample left it. -/
theorem advance_of_trips {x : FeedRecord} (h : x.trips = true) : x.advance = x := if_pos h

theorem trips_iff (x : FeedRecord) :
    x.trips = true ↔ x.faultActive = true ∧ (x.state = .softstart ∨ x.state = .on) := by
  simp [FeedRecord.trips]

/-- The feed's record once it has tripped at an uptime (R88). -/
def FeedRecord.tripped (now : Word) (x : FeedRecord) : FeedRecord :=
  { x with
    state := if x.offered.latchMode = .auto then .tripped else .lockedOff
    mainOn := false
    tripCount := satTrip x.tripCount
    lastTrip := now
    cooldown := x.offered.cooldown
    tripLimit := x.offered.tripLimit
    latchMode := x.offered.latchMode
    timer := 0 }

theorem trip_feed_own (now : Word) (f : FeedIx) (fc : FeedControl) :
    (fc.trip now f).feed[f] = (fc.feed[f]).tripped now := by
  simp [FeedControl.trip, FeedControl.upd, FeedRecord.tripped]

theorem trip_feed_other (now : Word) {f g : FeedIx} (h : f ≠ g) (fc : FeedControl) :
    (fc.trip now g).feed[f] = fc.feed[f] := by
  have apart : g.val ≠ f.val := fun e => h (Fin.ext e.symm)
  simp [FeedControl.trip, FeedControl.upd, apart]

theorem tripped_state (now : Word) (x : FeedRecord) :
    (x.tripped now).state = .tripped ∨ (x.tripped now).state = .lockedOff := by
  unfold FeedRecord.tripped
  dsimp only
  split
  · exact Or.inl rfl
  · exact Or.inr rfl

theorem tripped_outputs (now : Word) (x : FeedRecord) :
    (x.tripped now).mainOut = false ∧ (x.tripped now).preOut = false := by
  unfold FeedRecord.mainOut FeedRecord.preOut
  rcases tripped_state now x with e | e <;> rw [e] <;> exact ⟨rfl, rfl⟩

/-- The feed state that a status byte shows (section 11.4). -/
def feedStateOf (b : Byte) : FeedState :=
  match b.toNat with
  | 0 => .off
  | 1 => .waiting
  | 2 => .softstart
  | 3 => .on
  | 4 => .shed
  | 5 => .tripped
  | _ => .lockedOff

theorem feedStateOf_feedCode (st : FeedState) : feedStateOf (byteOf (feedCode st)) = st := by
  cases st <;> rfl

theorem feedCode_injective {a b : FeedState} (h : byteOf (feedCode a) = byteOf (feedCode b)) : a = b := by
  rw [← feedStateOf_feedCode a, h, feedStateOf_feedCode]

theorem feedStatus_state {x y : FeedRecord} (h : feedStatus x = feedStatus y) : x.state = y.state :=
  feedCode_injective (List.cons.inj h).1

/-! ### One trip (R86, R88) -/

/-- The runtime after the trip's own hand-over, as the notice finds it. -/
def State.handTrip (f : FeedIx) (s : State) : Runtime := s.rt.handFeeds s.feeds (s.feeds.trip s.uptimeNow f)

/-- A trip with its notice, before what the end of a cut soft start brings (R86). -/
def State.noticed (f : FeedIx) (s : State) : State :=
  ((s.setFeeds (s.feeds.trip s.uptimeNow f)).raise .feedEvent).onRt (Runtime.leftOn f)

theorem trip_eq (f : FeedIx) (s : State) :
    s.trip f = if s.feeds.feed[f].state = .softstart then (s.noticed f).afterSoftStart else s.noticed f := rfl

theorem noticed_rt (f : FeedIx) (s : State) : (s.noticed f).rt = (s.handTrip f).leftOn f := by
  simp only [State.noticed, State.onRt_rt, State.raise_rt, State.setFeeds_rt, State.handTrip]

theorem noticed_feeds (f : FeedIx) (s : State) :
    (s.noticed f).feeds = s.feeds.trip s.uptimeNow f ∧ (s.noticed f).supplyUp = s.supplyUp := by
  have monitor : (s.noticed f).monitor = s.monitor := by simp [State.noticed]
  exact ⟨by simp [State.noticed], congrArg (fun m : Monitor => decide (m.supply = .up)) monitor⟩

theorem afterSoftStart_rt (s : State) : s.rt.SameButQueue s.afterSoftStart.rt := handFeeds_same _ _ _

theorem afterSoftStart_feeds (s : State) : s.afterSoftStart.feeds = s.feeds.afterLeave s.supplyUp := rfl

theorem trip_feeds (f : FeedIx) (s : State) :
    (s.trip f).feeds = if s.feeds.feed[f].state = .softstart then (s.feeds.trip s.uptimeNow f).afterLeave s.supplyUp
      else s.feeds.trip s.uptimeNow f := by
  obtain ⟨feeds, up⟩ := noticed_feeds f s
  rw [trip_eq]
  split
  · rw [afterSoftStart_feeds, feeds, up]
  · exact feeds

theorem trip_rt (f : FeedIx) (s : State) : ((s.handTrip f).leftOn f).SameButQueue (s.trip f).rt := by
  rw [← noticed_rt, trip_eq]
  split
  · exact afterSoftStart_rt _
  · exact .refl _

/-- An item that the trip's hand-over queues stays queued. -/
theorem trip_keeps {f : FeedIx} {s : State} {i : Item} (h : i ∈ (s.handTrip f).queue) : i ∈ (s.trip f).rt.queue := by
  have noticed : i ∈ (s.noticed f).rt.queue := (leftOn_extends f (.refl (s.handTrip f))).mem h
  rw [trip_eq]
  split
  · exact (handFeeds_extends _ _ (.refl (s.noticed f).rt)).mem noticed
  · exact noticed

theorem Runtime.SameButQueue.units {r t : Runtime} (h : r.SameButQueue t) : t.units = r.units := by
  rw [show t = _ from h]

theorem Runtime.SameButQueue.lines {r t : Runtime} (h : r.SameButQueue t) : t.lines = r.lines := by
  rw [show t = _ from h]

theorem trip_uptimeNow (f : FeedIx) (s : State) : (s.trip f).uptimeNow = s.uptimeNow := by
  unfold State.uptimeNow
  rw [trip_due, trip_clock]

/-- What the trips of other feeds leave of a feed, and of the units on it. -/
structure State.Spares (f : FeedIx) (s t : State) : Prop where
  uptime : t.uptimeNow = s.uptimeNow
  feed : f ∉ s.feeds.admission → t.feeds.feed[f] = s.feeds.feed[f] ∧ f ∉ t.feeds.admission
  extends_ : s.rt.Extends t.rt
  units : ∀ u : UnitIx, s.rt.units[u].config.feed = f → s.rt.Passes u t.rt
  raised : s.port.events &&& 4 = 4 → t.port.events &&& 4 = 4

theorem State.Spares.refl (f : FeedIx) (s : State) : s.Spares f s :=
  ⟨rfl, fun out => ⟨rfl, out⟩, .refl _, fun u _ => .refl u _, id⟩

theorem State.Spares.trans {f : FeedIx} {a b c : State} (h : a.Spares f b) (h' : b.Spares f c) : a.Spares f c where
  uptime := h'.uptime.trans h.uptime
  feed out :=
    have ⟨same, out⟩ := h.feed out
    have ⟨same', out'⟩ := h'.feed out
    ⟨same'.trans same, out'⟩
  extends_ := h.extends_.trans h'.extends_
  units u e :=
    have before := h.units u e
    before.trans (h'.units u (by rw [before.config]; exact e))
  raised e := h'.raised (h.raised e)

theorem raise_feedEvent (e : BitVec 5) : (e ||| 4) &&& 4 = 4 := by
  revert e
  decide

theorem trip_raises (f : FeedIx) (s : State) : (s.trip f).port.events &&& 4 = 4 := by
  rw [trip_port]
  exact raise_feedEvent _

theorem trip_units_other {f g : FeedIx} (ne : g ≠ f) {s : State} {u : UnitIx} (h : s.rt.units[u].config.feed = f) :
    s.rt.Passes u (s.trip g).rt := by
  have handed : s.rt.Passes u (s.handTrip g) := (Runtime.Passes.refl u s.rt).same (by simp [State.handTrip])
    (by simp [State.handTrip])
  have other : (s.handTrip g).units[u].config.feed ≠ g := by
    rw [handed.config, h]
    exact ne.symm
  exact (handed.trans (leftOn_passes_other other)).same (trip_rt g s).units (trip_rt g s).lines

theorem trip_spares {f g : FeedIx} (ne : g ≠ f) (s : State) : s.Spares f (s.trip g) where
  uptime := trip_uptimeNow g s
  feed out := by
    have other := trip_feed_other s.uptimeNow ne.symm s.feeds
    have out' : f ∉ (s.feeds.trip s.uptimeNow g).admission := out
    rw [trip_feeds]
    split
    · rw [← other]
      exact afterLeave_not_listed s.supplyUp out'
    · exact ⟨other, out'⟩
  extends_ := trip_extends g (.refl _)
  units _ e := trip_units_other ne e
  raised _ := trip_raises g s

theorem trip_feed {f : FeedIx} {s : State} (out : f ∉ s.feeds.admission) :
    (s.trip f).feeds.feed[f] = (s.feeds.feed[f]).tripped s.uptimeNow ∧ f ∉ (s.trip f).feeds.admission := by
  have out' : f ∉ (s.feeds.trip s.uptimeNow f).admission := out
  rw [trip_feeds, ← trip_feed_own]
  split
  · exact afterLeave_not_listed s.supplyUp out'
  · exact ⟨rfl, out'⟩

theorem trip_queued {f : FeedIx} {s : State} (served : s.feeds.feed[f].state = .softstart ∨ s.feeds.feed[f].state = .on)
    (mode : s.rt.mode ≠ .stopped) : Item.feedStatus f ∈ (s.trip f).rt.queue := by
  have changed : feedStatus (s.feeds.trip s.uptimeNow f).feed[f] ≠ feedStatus s.feeds.feed[f] := by
    intro e
    have state := feedStatus_state e
    rw [trip_feed_own] at state
    rcases tripped_state s.uptimeNow s.feeds.feed[f] with now | now <;> rcases served with before | before <;>
      rw [now, before] at state <;> cases state
  exact trip_keeps (mem_handFeeds mode changed)

/-- The notice of the trip reaches the units of the feed (R59). -/
theorem trip_leftOn {f : FeedIx} {s : State} {u : UnitIx} (feed : s.rt.units[u].config.feed = f)
    (managed : s.rt.units[u].run ≠ .unmanaged) :
    (s.trip f).rt.units[u].forceCold = true ∧ (s.trip f).rt.units[u].config = s.rt.units[u].config
      ∧ (s.rt.Steps u → (s.rt.units[u]).LeftOn (s.trip f).rt.units[u] ∧ (s.trip f).rt.NoStep u) := by
  have handed : (s.handTrip f).units = s.rt.units ∧ (s.handTrip f).lines = s.rt.lines := by simp [State.handTrip]
  obtain ⟨units, lines⟩ := handed
  have same := trip_rt f s
  have idle : ((s.handTrip f).leftOn f).NoStep u → (s.trip f).rt.NoStep u := by
    unfold Runtime.NoStep
    rw [same.lines]
    exact id
  have steps : s.rt.Steps u → (s.handTrip f).Steps u := by
    unfold Runtime.Steps
    rw [lines, units]
    exact id
  rw [same.units]
  rw [← units] at feed managed ⊢
  exact ⟨leftOn_forceCold feed managed, leftOn_config feed, fun h =>
    ⟨leftOn_leftOn feed managed (steps h), idle (leftOn_noStep feed (steps h))⟩⟩

/-! ### The tick's trips, and what the Supply Monitor makes of the tick (R7, R88) -/

theorem tickFeeds_eq (fault : BitVec 16) (s : State) :
    s.tickFeeds fault = (s.feeds.sampleAll fault).tripping.foldl (fun s f => s.trip f)
      { s with feeds := s.feeds.sampleAll fault } :=
  rfl

theorem tripping_nodup (fc : FeedControl) : fc.tripping.Nodup := (List.nodup_finRange _).filter _

theorem mem_tripping {fc : FeedControl} {f : FeedIx} (h : (fc.feed[f]).trips = true) : f ∈ fc.tripping :=
  List.mem_filter.2 ⟨List.mem_finRange f, h⟩

/-- A feed that trips on the tick meets its own turn among the trips. -/
theorem tickFeeds_turn {fault : BitVec 16} {s : State} {f : FeedIx}
    (trips : ((s.feeds.sampleAll fault).feed[f]).trips = true) :
    ∃ s1 : State, State.Spares f { s with feeds := s.feeds.sampleAll fault } s1
      ∧ (s1.trip f).Spares f (s.tickFeeds fault) := by
  have nodup := tripping_nodup (s.feeds.sampleAll fault)
  have mem := mem_tripping trips
  rw [tickFeeds_eq]
  generalize ({ s with feeds := s.feeds.sampleAll fault } : State) = s0
  exact foldl_around (R := State.Spares f) (.refl f) .trans (act := fun s g => s.trip g) (fun _ ne s => trip_spares ne s)
    nodup mem s0

/-- An accepted change leaves alone a feed that neither waits nor starts. -/
theorem supplyChange_feed {f : FeedIx} {s : State} (rep : SupplyReport) (out : f ∉ s.feeds.admission)
    (state : s.feeds.feed[f].state ≠ .softstart) : (s.supplyChange rep).feeds.feed[f] = s.feeds.feed[f] := by
  have considered : ∀ x : State, x.feeds = s.feeds → x.considerAdmission.feeds.feed[f] = s.feeds.feed[f] := by
    intro x e
    rw [← e] at out ⊢
    exact consider_not_listed x.supplyUp out
  unfold State.supplyChange
  split
  · exact considered _ rfl
  · rw [handGap_feeds, declareGap_feed]
    exact if_neg state
  · rfl
  · refine considered _ ?_
    dsimp only
    split <;> rfl
  · rfl
  · rfl
  · rfl

theorem tickSupply_feed {f : FeedIx} {s : State} (lineOk : Bool) (out : f ∉ s.feeds.admission)
    (state : s.feeds.feed[f].state ≠ .softstart) : (s.tickSupply lineOk).feeds.feed[f] = s.feeds.feed[f] := by
  unfold State.tickSupply
  dsimp only
  split
  · exact supplyChange_feed (s := { s with monitor := _ }) _ out state
  · rfl

/-- Once LINE_OK has been accepted, no report of the filter is a first one (R3, R4). -/
theorem sample_not_initial {x : SupplyFilter} (accepted : x.accepted.isSome = true) (level b : Bool) :
    (x.sample level).2 ≠ some (.initial b) := by
  obtain ⟨a, ha⟩ := Option.isSome_iff_exists.1 accepted
  unfold SupplyFilter.sample
  rw [ha]
  dsimp only
  split
  · nofun
  · split
    · cases level <;> nofun
    · nofun

/-- Of the accepted changes, the first finding of an absent supply alone reaches the units (R8). -/
theorem supplyChange_unit (s : State) (rep : SupplyReport) (u : UnitIx) :
    (s.supplyChange rep).rt.units[u] = s.rt.units[u]
      ∨ rep = .initial false ∧ (s.supplyChange rep).rt.units[u] = (s.rt.units[u]).ridden := by
  unfold State.supplyChange State.considerAdmission
  split
  · exact Or.inl (by simp)
  · exact Or.inr ⟨rfl, handGap_unit _ u⟩
  · exact Or.inl rfl
  · refine Or.inl ?_
    dsimp only
    split <;> simp
  · exact Or.inl rfl
  · exact Or.inl rfl
  · exact Or.inl rfl

theorem tickSupply_unit {s : State} (lineOk : Bool) (u : UnitIx) :
    ((s.tickSupply lineOk).rt.units[u] = s.rt.units[u] ∨ (s.tickSupply lineOk).rt.units[u] = (s.rt.units[u]).ridden)
      ∧ (s.monitor.filter.accepted.isSome = true → (s.tickSupply lineOk).rt.units[u] = s.rt.units[u]) := by
  cases sampled : s.monitor.filter.sample lineOk with
  | mk x rep =>
    cases rep with
    | none =>
      rw [tickSupply_none sampled, withFilter_rt]
      exact ⟨Or.inl rfl, fun _ => rfl⟩
    | some rep =>
      rw [tickSupply_some sampled]
      rcases supplyChange_unit (s.withFilter x) rep u with same | ⟨first, rides⟩
      · exact ⟨Or.inl same, fun _ => same⟩
      · refine ⟨Or.inr rides, fun accepted => ?_⟩
        exact absurd (by rw [sampled, first]) (sample_not_initial accepted lineOk false)

theorem ridden_forceCold {x : UnitRecord} (h : x.forceCold = true) : x.ridden.forceCold = true := by
  have riding : x.toRiding.forceCold = true := by
    show (x.forceCold || _) = true
    rw [h]
    rfl
  unfold UnitRecord.ridden
  split
  · exact h
  · split
    · rw [closed_kept]
      exact riding
    · exact riding

/-! ### A feed whose fault is accepted on a tick -/

theorem countTimers_leftOn {x y : UnitRecord} {busy : Bool} (h : (x.countTimers busy).LeftOn y) : x.LeftOn y := h

theorem count_steps {s : State} {u : UnitIx} (h : s.rt.StepsOfItsGroup u) : s.count.rt.Steps u := by
  intro k g slot step
  rw [count_line] at slot
  obtain ⟨run, line, member⟩ := h k g slot step
  rw [count_unit]
  exact ⟨Or.inl run, line, member⟩

section Tripping

variable {fault : BitVec 16} {s : State} {f : FeedIx}

/-- The feed's turn among the trips of a tick, from its count on. -/
theorem atSupply_turn (trips : ((s.feeds.feed[f]).sample (fault.getLsbD f.val)).trips = true) :
    ∃ s1 : State, State.Spares f { s.count with feeds := s.feeds.sampleAll fault } s1
      ∧ (s1.trip f).Spares f (s.atSupply fault) := by
  have sampled : ((s.count.feeds.sampleAll fault).feed[f]).trips = true := by
    rw [count_feeds, sampleAll_feed, advance_of_trips trips]
    exact trips
  have turn := tickFeeds_turn (s := s.count) sampled
  rw [count_feeds] at turn
  exact turn

variable (trips : ((s.feeds.feed[f]).sample (fault.getLsbD f.val)).trips = true)

include trips

theorem atSupply_feed (out : f ∉ s.feeds.admission) :
    (s.atSupply fault).feeds.feed[f]
        = ((s.feeds.feed[f]).sample (fault.getLsbD f.val)).tripped (s.atSupply fault).uptimeNow
      ∧ f ∉ (s.atSupply fault).feeds.admission := by
  obtain ⟨s1, before, after⟩ := atSupply_turn trips
  obtain ⟨same, out1⟩ := before.feed out
  obtain ⟨own, out2⟩ := trip_feed out1
  obtain ⟨kept, out3⟩ := after.feed out2
  refine ⟨?_, out3⟩
  rw [kept, own, same, after.uptime, trip_uptimeNow, sampleAll_feed, advance_of_trips trips]

theorem atSupply_raises : (s.atSupply fault).port.events &&& 4 = 4 := by
  obtain ⟨s1, -, after⟩ := atSupply_turn trips
  exact after.raised (trip_raises f s1)

theorem atSupply_queued (out : f ∉ s.feeds.admission) (mode : s.rt.mode ≠ .stopped) :
    Item.feedStatus f ∈ (s.atSupply fault).rt.queue := by
  obtain ⟨s1, before, after⟩ := atSupply_turn trips
  obtain ⟨same, -⟩ := before.feed out
  obtain ⟨-, served⟩ := (trips_iff _).1 trips
  have running : s1.rt.mode ≠ .stopped := by
    rw [before.extends_.mode, (count_extends s).mode]
    exact mode
  refine after.extends_.mem (trip_queued ?_ running)
  rw [same, sampleAll_feed, advance_of_trips trips]
  exact served

/-- The units of the feed have its notice by the end of the trips (R59). -/
theorem atSupply_unit {u : UnitIx} (feed : s.rt.units[u].config.feed = f) (managed : s.rt.units[u].run ≠ .unmanaged) :
    (s.atSupply fault).rt.units[u].forceCold = true
      ∧ (s.rt.StepsOfItsGroup u → (s.rt.units[u]).LeftOn (s.atSupply fault).rt.units[u]) := by
  obtain ⟨s1, before, after⟩ := atSupply_turn trips
  have counted : s.count.rt.units[u].config = s.rt.units[u].config ∧ s.count.rt.units[u].run = s.rt.units[u].run := by
    rw [count_unit]
    exact ⟨rfl, rfl⟩
  obtain ⟨config, run⟩ := counted
  have passes : s.count.rt.Passes u s1.rt := before.units u (by rw [config]; exact feed)
  have feed1 : s1.rt.units[u].config.feed = f := by rw [passes.config, config, feed]
  have managed1 : s1.rt.units[u].run ≠ .unmanaged := by
    rcases passes.unit.run with same | verifies
    · rwa [same, run]
    · rw [verifies]
      nofun
  obtain ⟨cold, kept, left⟩ := trip_leftOn feed1 managed1
  have feed2 : (s1.trip f).rt.units[u].config.feed = f := by rw [kept, feed1]
  have later := after.units u feed2
  refine ⟨(later.unit.field UnitRecord.forceCold fun _ _ _ _ => rfl).trans cold, fun alone => ?_⟩
  have steps := count_steps alone
  obtain ⟨own, idle⟩ := left (steps.kept passes)
  have counted : (s.count.rt.units[u]).LeftOn (s.atSupply fault).rt.units[u] :=
    (own.follows later.unit (later.idle idle)).of_follows passes.unit (passes.run_of_steps steps)
  rw [count_unit] at counted
  exact countTimers_leftOn counted

end Tripping

/-- What the trip latches and counts, the sample's marks apart (R88). -/
theorem tripped_sample (now : Word) (level : Bool) (x : FeedRecord) :
    ((x.sample level).tripped now).state = (if x.offered.latchMode = .auto then .tripped else .lockedOff)
      ∧ ((x.sample level).tripped now).tripCount = min (x.tripCount + 1) 255
      ∧ ((x.sample level).tripped now).lastTrip = now
      ∧ ((x.sample level).tripped now).cooldown = x.offered.cooldown
      ∧ ((x.sample level).tripped now).tripLimit = x.offered.tripLimit
      ∧ ((x.sample level).tripped now).latchMode = x.offered.latchMode
      ∧ ((x.sample level).tripped now).timer = 0 ∧ ((x.sample level).tripped now).weight = x.weight := by
  rw [sample_kept]
  exact ⟨rfl, rfl, rfl, rfl, rfl, rfl, rfl, rfl⟩

theorem forceCold_of_ridden {x y : UnitRecord} (cold : x.forceCold = true) (reached : y = x ∨ y = x.ridden) :
    y.forceCold = true := by
  rcases reached with same | rides
  · rw [same]
    exact cold
  · rw [rides]
    exact ridden_forceCold cold

/-- Settles O23: the feed's own trip among those of the tick, then the Supply Monitor's part, which leaves the feed alone and
reaches its units, if at all, by a first gap. -/
theorem faultedFeedTrips : Obligations.FaultedFeedTrips := by
  intro lineOk fault f s due listed served accepts
  obtain ⟨-, waiting⟩ := listed
  have out : f ∉ s.feeds.admission := fun mem => by
    rcases served with state | state <;> rw [(waiting f).1 mem] at state <;> cases state
  have active := sample_faultActive accepts
  have trips : ((s.feeds.feed[f]).sample (fault.getLsbD f.val)).trips = true := by
    rw [trips_iff, sample_kept]
    exact ⟨active, served⟩
  obtain ⟨feed, out'⟩ := atSupply_feed trips out
  have raised := atSupply_raises trips
  have queued := atSupply_queued trips out
  have noticed := fun u => atSupply_unit trips (u := u)
  have uptime := atSupply_uptimeNow fault s
  have monitor := atSupply_monitor fault s
  have notPending : (s.atSupply fault).pending = s.pending := by rw [State.atSupply, tickFeeds_pending, count_pending]
  obtain ⟨state, count, last, cooldown, limit, latch, timer, weight⟩ :=
    tripped_sample (s.atSupply fault).uptimeNow (fault.getLsbD f.val) s.feeds.feed[f]
  obtain ⟨main, pre⟩ := tripped_outputs (s.atSupply fault).uptimeNow ((s.feeds.feed[f]).sample (fault.getLsbD f.val))
  have cut := tripped_state (s.atSupply fault).uptimeNow ((s.feeds.feed[f]).sample (fault.getLsbD f.val))
  have ticked := tick_of_nothing_due due lineOk fault
  rw [← feed] at state count last cooldown limit latch timer weight main pre cut
  generalize s.atSupply fault = x at *
  have kept : (x.tickSupply lineOk).feeds.feed[f] = x.feeds.feed[f] :=
    tickSupply_feed lineOk out' (by rcases cut with e | e <;> rw [e] <;> nofun)
  rw [← kept] at state count last cooldown limit latch timer weight main pre
  have reached := fun u => tickSupply_unit (s := x) lineOk u
  obtain ⟨-, -, pending, port⟩ := tickSupply_frame lineOk x
  have handed := tickSupply_extends lineOk x
  generalize x.tickSupply lineOk = y at *
  refine ⟨y.compare, (exec_tick lineOk fault s).trans (congrArg Host.Outcome.next ticked), state, main, pre, count,
    last.trans uptime, cooldown, limit, latch, timer, weight, ?raised, pending.trans notPending,
    fun mode => handed.mem (queued mode), fun u on managed => ?units⟩
  case raised =>
    rw [compare_port, port]
    exact raised
  case units =>
    obtain ⟨cold, left⟩ := noticed u on managed
    obtain ⟨rides, steady⟩ := reached u
    refine ⟨forceCold_of_ridden cold rides, fun accepted alone => ?_⟩
    rw [compare_rt, steady (by rw [monitor]; exact accepted)]
    exact left alone

end Machine

end Sys2Proof

/-! PROOFS. A boot timeout (R60, R71): a withdrawal leaves the unit no entry on its line, and a run that fails answers and
shows what it must. -/

namespace Sys2Proof

namespace Machine

/-! ### A withdrawn unit has no entry on its line (R132) -/

/-- The unit has no entry on the line, and waits for no slot that would let it post its begin work. -/
structure Runtime.OffList (u : UnitIx) (k : LineIx) (r : Runtime) : Prop where
  step : r.units[u].loadStep ≠ .slotWait
  waits : (r.lines[k]).waits u = false

theorem waits_eq_false {u : UnitIx} {l : LineRecord} : l.waits u = false ↔ ∀ w, Entry.single u w ∉ l.waitList := by
  unfold LineRecord.waits
  rw [List.any_eq_false]
  refine ⟨fun h w mem => h _ mem (decide_eq_true rfl), fun h e mem => ?_⟩
  cases e with
  | group => nofun
  | single v w =>
    intro own
    obtain rfl : v = u := of_decide_eq_true own
    exact h w mem

theorem unlist_waits (u : UnitIx) (l : LineRecord) : (l.unlist u).waits u = false := by
  unfold LineRecord.waits LineRecord.unlist
  rw [List.any_eq_false]
  intro e mem
  simpa using (List.mem_filter.1 mem).2

theorem abandon_waitList (l : LineRecord) : l.abandon.waitList = l.waitList := by
  unfold LineRecord.abandon
  dsimp only
  split <;> rfl

/-- Work of another unit gives this unit no entry. -/
theorem list_waits_other {u v : UnitIx} (ne : v ≠ u) (w : Work) {l : LineRecord} (h : l.waits u = false) :
    (l.list v w).waits u = false := by
  rw [waits_eq_false] at h ⊢
  intro w' mem
  unfold LineRecord.list at mem
  split at mem
  · obtain ⟨e, inList, made⟩ := List.mem_map.1 mem
    split at made
    · exact ne (by cases made; rfl)
    · exact h w' (made ▸ inList)
  · rcases List.mem_append.1 mem with inList | new
    · exact h w' inList
    · cases List.mem_singleton.1 new
      exact ne rfl

section OffList

variable {u : UnitIx} {k : LineIx} {r : Runtime}

theorem updUnit_offList (v : UnitIx) {f : UnitRecord → UnitRecord}
    (hf : v = u → (f r.units[u]).loadStep ≠ .slotWait) (h : r.OffList u k) : (r.updUnit v f).OffList u k := by
  refine ⟨?_, by rw [Runtime.updUnit_lines]; exact h.waits⟩
  by_cases e : u = v
  · subst e
    rw [updUnit_unit]
    exact hf rfl
  · rw [updUnit_other e]
    exact h.step

theorem updLine_offList (j : LineIx) {f : LineRecord → LineRecord} (hf : ∀ l, l.waits u = false → (f l).waits u = false)
    (h : r.OffList u k) : (r.updLine j f).OffList u k := by
  refine ⟨by rw [Runtime.updLine_units]; exact h.step, ?_⟩
  by_cases e : k = j
  · subst e
    rw [updLine_line]
    exact hf _ h.waits
  · rw [updLine_other e]
    exact h.waits

theorem post_offList {v : UnitIx} (ne : v ≠ u) (w : Work) (h : r.OffList u k) : (r.post v w).OffList u k := by
  unfold Runtime.post
  split
  · exact updUnit_offList v (fun e => absurd e ne) h
  · exact updLine_offList _ (fun _ => list_waits_other ne w) h

theorem freeSlot_offList (j : LineIx) (h : r.OffList u k) : (r.freeSlot j).OffList u k := by
  have cleared : (r.updLine j LineRecord.clearSlot).OffList u k := updLine_offList j (fun _ => id) h
  unfold Runtime.freeSlot Runtime.eachUnit
  refine List.foldlRecOn _ _ ⟨cleared.step, cleared.waits⟩ fun r off v _ => ?_
  dsimp only
  split
  · next waiting =>
    obtain ⟨step, -⟩ := waiting
    have ne : v ≠ u := by
      rintro rfl
      exact off.step step
    exact post_offList ne _ (updUnit_offList v (fun e => absurd e ne) off)
  · exact off

theorem dissolve_offList (j : LineIx) (h : r.OffList u k) : (r.dissolve j).OffList u k := by
  unfold Runtime.dissolve
  split
  · exact h
  · next g _ =>
    have idle : (g.members.foldl (fun r m => r.updUnit m.unit fun x => { x with loadStep := .idle }) r).OffList u k :=
      List.foldlRecOn _ _ h fun r off m _ => updUnit_offList m.unit (fun _ => nofun) off
    refine freeSlot_offList j (updLine_offList j (fun l free => ?_) idle)
    rw [waits_eq_false] at free ⊢
    intro w mem
    have kept := (List.mem_filter.1 mem).1
    split at kept
    · rw [abandon_waitList] at kept
      exact free w kept
    · exact free w kept

theorem dissolveEmpty_offList (j : LineIx) (h : r.OffList u k) : (r.dissolveEmpty j).OffList u k := by
  unfold Runtime.dissolveEmpty
  (repeat' split) <;> first | exact h | exact dissolve_offList j h

/-- A member taken off has its load step ended, so that it posts nothing when the group is dissolved. -/
theorem takeOffGroup_offList (j : LineIx) (g : Group) (free : (r.lines[k]).waits u = false) :
    (r.takeOffGroup j u g).OffList u k := by
  have idle : (r.updUnit u fun x => { x with loadStep := .idle }).OffList u k :=
    ⟨by rw [updUnit_unit]; nofun, by rw [Runtime.updUnit_lines]; exact free⟩
  refine updLine_offList j (fun l h => ?_) idle
  rw [waits_eq_false] at h ⊢
  intro w mem
  dsimp only at mem
  split at mem
  · rw [abandon_waitList] at mem
    exact h w mem
  · exact h w mem

theorem leaveGroup_waits (j : LineIx) (free : (r.lines[k]).waits u = false) :
    ((r.leaveGroup j u id).lines[k]).waits u = false := by
  unfold Runtime.leaveGroup
  split
  · exact free
  · split
    · exact (dissolveEmpty_offList j (takeOffGroup_offList j _ free)).waits
    · exact free

theorem withoutUnit_waits (u : UnitIx) (l : LineRecord) : (l.withoutUnit u).waits u = false := by
  unfold LineRecord.withoutUnit
  split
  · rw [LineRecord.waits, abandon_waitList]
    exact unlist_waits u l
  · exact unlist_waits u l

theorem withdraw_waits (u : UnitIx) (r : Runtime) :
    ((r.withdraw u).lines[r.units[u].config.line]).waits u = false := by
  have free : ((r.updLine r.units[u].config.line (LineRecord.withoutUnit u)).lines[r.units[u].config.line]).waits u
      = false := by
    rw [updLine_line]
    exact withoutUnit_waits u _
  have left := leaveGroup_waits r.units[u].config.line free
  have off : (r.unlisted u).OffList u r.units[u].config.line := by
    unfold Runtime.unlisted
    refine ⟨?_, by rw [Runtime.updUnit_lines]; exact left⟩
    rw [updUnit_unit]
    nofun
  rw [withdraw_eq]
  split
  · exact (freeSlot_offList _ off).waits
  · exact off.waits

end OffList

/-! ### A run that fails (R38, R71) -/

/-- The run state that the first byte of a result part shows (R38). -/
def runStateOf (b : Byte) : RunState :=
  match b.toNat with
  | 0 => .unmanaged
  | 1 => .probing
  | 2 => .running
  | 3 => .held
  | 4 => .riding
  | 5 => .waitFeed
  | 6 => .checking
  | 7 => .attending
  | 8 => .loading
  | 9 => .verifying
  | 10 => .restoring
  | _ => .failed

theorem runStateOf_runCode (st : RunState) : runStateOf (byteOf (runCode st)) = st := by
  cases st <;> rfl

theorem runCode_injective {a b : RunState} (h : byteOf (runCode a) = byteOf (runCode b)) : a = b := by
  rw [← runStateOf_runCode a, h, runStateOf_runCode]

/-- The first byte of the result part shows the run state (R38). -/
theorem mirror_ne_of_run {x y : UnitRecord} (h : y.run ≠ x.run) : y.mirror ≠ x.mirror := by
  have code : ∀ z : UnitRecord, z.mirror.head? = some (byteOf (runCode z.run)) := fun _ => rfl
  intro same
  have heads := congrArg List.head? same
  rw [code, code] at heads
  exact h (runCode_injective (Option.some.inj heads))

/-- The record of a unit whose run has failed, its request in flight apart (R71). -/
def UnitRecord.failed (c : FailureCause) (x : UnitRecord) : UnitRecord :=
  { x.stopTimers with run := .failed, cause := c, probePending := false }

theorem failRun_eq (u : UnitIx) (c : FailureCause) (r : Runtime) :
    r.failRun u c =
      if (((r.withdraw u).updUnit u (UnitRecord.failed c)).units[u]).enlistOrReload then
        ((r.withdraw u).updUnit u (UnitRecord.failed c)).closeInFlight u .failed
      else (r.withdraw u).updUnit u (UnitRecord.failed c) := rfl

theorem UnitRecord.KeptFrom.failed {x y : UnitRecord} (h : x.KeptFrom y) (c : FailureCause) :
    (x.failed c).KeptFrom (y.failed c) := by
  rw [show y = _ from h]
  rfl

theorem enlistOrReload_eq_true {x : UnitRecord} {q : InFlight} (flight : x.inFlight = some q) :
    x.enlistOrReload = true ↔ q.request = .enlist ∨ q.request = .reload := by
  simp [UnitRecord.enlistOrReload, flight]

/-- The record of a unit after its run has failed (R71). -/
theorem failRun_kept (u : UnitIx) (c : FailureCause) (r : Runtime) :
    UnitRecord.KeptFrom
      (if (r.units[u]).enlistOrReload then ((r.units[u]).failed c).closed .failed else (r.units[u]).failed c)
      (r.failRun u c).units[u] := by
  have kept : ((r.units[u]).failed c).KeptFrom (((r.withdraw u).updUnit u (UnitRecord.failed c)).units[u]) := by
    rw [updUnit_unit]
    exact (withdraw_keeps u (.refl r) u).failed c
  have request : (((r.withdraw u).updUnit u (UnitRecord.failed c)).units[u]).enlistOrReload = (r.units[u]).enlistOrReload :=
    kept.field UnitRecord.enlistOrReload fun _ _ _ => rfl
  rw [failRun_eq, request]
  split
  · rw [closeInFlight_unit]
    exact kept.closed .failed
  · exact kept

theorem failRun_lines (u : UnitIx) (c : FailureCause) (r : Runtime) : (r.failRun u c).lines = (r.withdraw u).lines := by
  rw [failRun_eq]
  split <;> simp

/-- A run that fails shows it: the unit's result item is handed. -/
theorem failRun_queued {u : UnitIx} {c : FailureCause} {r : Runtime} (mode : r.mode ≠ .stopped)
    (run : r.units[u].run ≠ .failed) : Item.unitResult u ∈ (r.failRun u c).queue := by
  have gone : (r.withdraw u).units[u].run = r.units[u].run :=
    (withdraw_keeps u (.refl r)).field u UnitRecord.run fun _ _ _ => rfl
  have handed : Item.unitResult u ∈ ((r.withdraw u).updUnit u (UnitRecord.failed c)).queue := by
    unfold Runtime.updUnit Runtime.setUnit
    rw [if_neg (mirror_ne_of_run (by rw [gone]; exact fun e => run e.symm))]
    refine mem_enqueue _ _ ?_
    rw [← (withdraw_extends u (.refl r)).mode] at mode
    exact mode
  rw [failRun_eq]
  split
  · exact (closeInFlight_extends u .failed (.refl _)).mem handed
  · exact handed

/-- What a run that has failed keeps, and what it stops. -/
theorem failRun_record (u : UnitIx) (c : FailureCause) (r : Runtime) :
    (r.failRun u c).units[u].run = .failed ∧ (r.failRun u c).units[u].cause = c
      ∧ (r.failRun u c).units[u].probePending = false ∧ (r.failRun u c).units[u].bootTimer = none
      ∧ (r.failRun u c).units[u].attendTimer = none ∧ (r.failRun u c).units[u].pollTimer = none
      ∧ (r.failRun u c).units[u].context = r.units[u].context
      ∧ (r.failRun u c).units[u].forceCold = r.units[u].forceCold
      ∧ (r.failRun u c).units[u].imageValid = r.units[u].imageValid := by
  rw [show (r.failRun u c).units[u] = _ from failRun_kept u c r]
  split
  · rw [closed_kept]
    exact ⟨rfl, rfl, rfl, rfl, rfl, rfl, rfl, rfl, rfl⟩
  · exact ⟨rfl, rfl, rfl, rfl, rfl, rfl, rfl, rfl, rfl⟩

theorem failRun_answers {u : UnitIx} {c : FailureCause} {r : Runtime} {q : InFlight} (flight : r.units[u].inFlight = some q)
    (request : q.request = .enlist ∨ q.request = .reload) : ((r.failRun u c).units[u]).Answered q .failed := by
  rw [show (r.failRun u c).units[u] = _ from failRun_kept u c r, if_pos ((enlistOrReload_eq_true flight).2 request),
    closed_some (x := (r.units[u]).failed c) flight]
  exact ⟨rfl, rfl, rfl⟩

/-! ### The boot timer expires (R60, R71) -/

/-- Settles O25: held while the line serves the unit, else the run fails. -/
theorem bootTimeoutEnds : Obligations.BootTimeoutEnds := by
  intro u s due contacting timer
  have expires : (s.rt.units[u]).contacting = true ∧ s.rt.units[u].bootTimer = some s.rt.units[u].config.bootTimeout :=
    ⟨decide_eq_true contacting, timer⟩
  have taken : ∀ rt, s.rt.bootExpiry u = rt →
      exec (.bootTimeout u) s = .next { s with due := s.due.erase (.bootTimeout u), rt := rt } := by
    rintro rt rfl
    show Host.Outcome.next (s.takeDue (.bootTimeout u)) = _
    rw [takeDue_eq, if_pos due]
    rfl
  refine ⟨fun serves => ?held, fun idle => ?fails⟩
  case held =>
    refine taken _ ?_
    rw [Runtime.bootExpiry, if_pos expires, if_pos serves]
    exact updUnit_unmirrored rfl
  case fails =>
    have ends : s.rt.bootExpiry u = s.rt.failRun u .bootTimeout := by
      rw [Runtime.bootExpiry, if_pos expires, if_neg (by rw [idle]; nofun)]
    have run : s.rt.units[u].run ≠ .failed := by
      rcases contacting with e | e <;> rw [e] <;> nofun
    have record := failRun_record u .bootTimeout s.rt
    have gone : ((s.rt.failRun u .bootTimeout).lines[s.rt.units[u].config.line]).waits u = false := by
      rw [failRun_lines]
      exact withdraw_waits u s.rt
    have answers := fun q => failRun_answers (u := u) (c := .bootTimeout) (r := s.rt) (q := q)
    have queued := fun mode => failRun_queued (u := u) (c := .bootTimeout) (r := s.rt) mode run
    have kept := failRun_extends u .bootTimeout (.refl s.rt)
    have others := (failRun_turn .bootTimeout (.refl u s.rt)).others
    generalize s.rt.failRun u .bootTimeout = r at *
    obtain ⟨failed, cause, probe, boot, attend, poll, context, cold, -⟩ := record
    exact ⟨_, taken r ends, failed, cause, probe, boot, attend, poll, context, cold, gone, answers, queued,
      fun v ne => (others v ne).field UnitRecord.run fun _ _ _ => rfl, rfl, rfl, rfl, rfl, rfl, rfl, kept.mode,
      kept.settings⟩

end Machine

end Sys2Proof

/-! PROOFS. An area fault by a failed read (R77, R163, R174, R203, R204): what the end of every load leaves of the units, the
lines and the read path. -/

namespace Sys2Proof

namespace Machine

/-! ### The read path stays free while loads end -/

section ReadPath

variable {r : Runtime} (h : r.read = none)

include h

theorem post_read (u : UnitIx) (w : Work) : (r.post u w).read = none := by
  unfold Runtime.post
  split <;> simpa using h

theorem freeSlot_read (k : LineIx) : (r.freeSlot k).read = none := by
  unfold Runtime.freeSlot Runtime.eachUnit
  refine List.foldlRecOn (motive := fun r : Runtime => r.read = none) _ _ ?_ fun r free u _ => ?_
  · rw [h]
    rfl
  · dsimp only
    split
    · exact post_read (by simpa using free) u .beginLoad
    · exact free

theorem dissolve_read (k : LineIx) : (r.dissolve k).read = none := by
  unfold Runtime.dissolve
  split
  · exact h
  · next g _ =>
    have idle : (g.members.foldl (fun r m => r.updUnit m.unit fun x => { x with loadStep := .idle }) r).read = none :=
      List.foldlRecOn (motive := fun r : Runtime => r.read = none) _ _ h fun r free m _ => by simpa using free
    exact freeSlot_read (by rw [Runtime.updLine_read]; exact idle) k

theorem leaveGroup_read (k : LineIx) (u : UnitIx) : (r.leaveGroup k u id).read = none := by
  have off : ∀ g, (r.takeOffGroup k u g).read = none := fun g => by
    unfold Runtime.takeOffGroup
    simpa using h
  unfold Runtime.leaveGroup
  split
  · exact h
  · next g _ =>
    split
    · unfold Runtime.dissolveEmpty
      split
      · exact off g
      · split
        · exact dissolve_read (off g) k
        · exact off g
    · exact h

theorem withdraw_read (u : UnitIx) : (r.withdraw u).read = none := by
  have unlisted : (r.unlisted u).read = none := by
    unfold Runtime.unlisted
    rw [Runtime.updUnit_read]
    exact leaveGroup_read (by rw [Runtime.updLine_read]; exact h) _ u
  rw [withdraw_eq]
  split
  · exact freeSlot_read unlisted _
  · exact unlisted

theorem failRun_read (u : UnitIx) (c : FailureCause) : (r.failRun u c).read = none := by
  have gone := withdraw_read h u
  rw [failRun_eq]
  split <;> simpa using gone

theorem keepVerdict_read (k : LineIx) : (r.keepVerdict k).read = none := by
  unfold Runtime.keepVerdict
  (repeat' split) <;> simpa using h

end ReadPath

/-! ### Every load ends (R77, R163) -/

/-- A unit in LOADING fails in an area fault (R77). -/
def Runtime.failLoading (u : UnitIx) (r : Runtime) : Runtime :=
  if r.units[u].run = .loading then (r.updUnit u fun x => { x with imageValid := false }).failRun u .area else r

/-- The runs have failed, and the groups are still to be dissolved. -/
def Runtime.loadingFailed (r : Runtime) : Runtime := (r.eachLine Runtime.keepVerdict).eachUnit Runtime.failLoading

/-- The groups are dissolved too. -/
def Runtime.loadsEnded (r : Runtime) : Runtime := r.loadingFailed.eachLine Runtime.dissolve

theorem failLoads_eq (r : Runtime) : r.failLoads = { r.loadsEnded.orphanRead with fetchList := [] } := rfl

theorem failLoads_frame (r : Runtime) :
    r.failLoads.units = r.loadsEnded.units ∧ r.failLoads.lines = r.loadsEnded.lines ∧ r.failLoads.fetchList = []
      ∧ (r.loadsEnded.read = none → r.failLoads.read = none) := by
  rw [failLoads_eq]
  generalize r.loadsEnded = x
  refine ⟨rfl, rfl, rfl, fun free => ?_⟩
  show Option.map _ x.read = none
  rw [free]
  rfl

theorem failLoading_turn (u : UnitIx) (r : Runtime) : r.TurnOf u (r.failLoading u) := by
  unfold Runtime.failLoading
  split
  · exact failRun_turn .area (updUnit_turn _ (.refl u r))
  · exact .refl u r

theorem failLoading_extends (u : UnitIx) (r : Runtime) : r.Extends (r.failLoading u) :=
  ite_extends _ (failRun_extends u .area (updUnit_extends u _ (.refl r))) (.refl r)

theorem failLoads_read {r : Runtime} (h : r.read = none) : r.failLoads.read = none := by
  have verdicts : (r.eachLine Runtime.keepVerdict).read = none :=
    List.foldlRecOn (motive := fun r : Runtime => r.read = none) _ _ h fun r free k _ => keepVerdict_read free k
  have failed : r.loadingFailed.read = none :=
      List.foldlRecOn (motive := fun r : Runtime => r.read = none) _ _ verdicts fun r free u _ => by
    unfold Runtime.failLoading
    split
    · exact failRun_read (by rw [Runtime.updUnit_read]; exact free) u .area
    · exact free
  have dissolved : r.loadsEnded.read = none :=
    List.foldlRecOn (motive := fun r : Runtime => r.read = none) _ _ failed fun r free k _ => dissolve_read free k
  obtain ⟨-, -, -, read⟩ := failLoads_frame r
  exact read dissolved

theorem keepVerdict_keeps {r0 r : Runtime} (k : LineIx) (h : r0.KeepsUnits r) : r0.KeepsUnits (r.keepVerdict k) := by
  have idle : ∀ x : UnitRecord, x.KeptFrom { x with loadStep := .idle } := fun _ => rfl
  unfold Runtime.keepVerdict
  (repeat' split) <;> first | exact h | exact updLine_keeps k _ (updUnit_keeps _ _ idle h)

/-- A unit meets the failure of its run between those of the others. -/
theorem loadingFailed_turn (u : UnitIx) (r : Runtime) :
    ∃ r1 : Runtime, (r.units[u]).KeptFrom r1.units[u] ∧ ((r1.failLoading u).units[u]).KeptFrom r.failLoads.units[u] := by
  have verdicts : r.KeepsUnits (r.eachLine Runtime.keepVerdict) := eachLine_keeps (fun k r h => keepVerdict_keeps k h)
    fun _ => .refl _
  obtain ⟨r1, before, after⟩ := eachUnit_turn failLoading_turn failLoading_extends u (r.eachLine Runtime.keepVerdict)
  have dissolved : r.loadingFailed.KeepsUnits r.loadsEnded :=
    eachLine_keeps (fun k r h => dissolve_keeps k h) fun _ => .refl _
  obtain ⟨units, -⟩ := failLoads_frame r
  rw [units]
  exact ⟨r1, (verdicts u).trans before.unit, after.unit.trans (dissolved u)⟩

theorem failLoads_loading {u : UnitIx} {r : Runtime} (h : r.units[u].run = .loading) :
    r.failLoads.units[u].run = .failed ∧ r.failLoads.units[u].cause = .area
      ∧ r.failLoads.units[u].imageValid = false := by
  obtain ⟨r1, before, after⟩ := loadingFailed_turn u r
  have loading : r1.units[u].run = .loading := (before.field UnitRecord.run fun _ _ _ => rfl).trans h
  rw [Runtime.failLoading, if_pos loading] at after
  obtain ⟨run, cause, -, -, -, -, -, -, image⟩ :=
    failRun_record u .area (r1.updUnit u fun x => { x with imageValid := false })
  refine ⟨(after.field UnitRecord.run fun _ _ _ => rfl).trans run,
    (after.field UnitRecord.cause fun _ _ _ => rfl).trans cause,
    ((after.field UnitRecord.imageValid fun _ _ _ => rfl).trans image).trans ?_⟩
  rw [updUnit_unit]

theorem failLoads_other {u : UnitIx} {r : Runtime} (h : r.units[u].run ≠ .loading) :
    r.failLoads.units[u].run = r.units[u].run := by
  obtain ⟨r1, before, after⟩ := loadingFailed_turn u r
  have run : r1.units[u].run = r.units[u].run := before.field UnitRecord.run fun _ _ _ => rfl
  rw [Runtime.failLoading, if_neg (by rw [run]; exact h)] at after
  exact (after.field UnitRecord.run fun _ _ _ => rfl).trans run

/-! ### Every group is dissolved (R163) -/

theorem no_group_of_freeSlot (k : LineIx) (r : Runtime) (g : Group) : (r.freeSlot k).lines[k].slot ≠ .group g := by
  intro slot
  obtain ⟨g0, slot0, -⟩ := freeSlot_clears k r k g slot
  rw [updLine_line] at slot0
  cases slot0

theorem no_group_of_dissolve (k : LineIx) (r : Runtime) (g : Group) : (r.dissolve k).lines[k].slot ≠ .group g := by
  unfold Runtime.dissolve
  split
  · next none => exact fun slot => absurd (groupRecord_eq_some.2 slot) (by rw [none]; nofun)
  · exact no_group_of_freeSlot k _ g

theorem failLoads_groupRecord (k : LineIx) (r : Runtime) : (r.failLoads.lines[k]).groupRecord = none := by
  obtain ⟨r1, -, after⟩ := foldl_around (R := Runtime.GroupsFrom) .refl .trans (act := fun r k => r.dissolve k) (i := k)
    (fun j _ r => dissolve_groups j (.refl r)) (List.nodup_finRange _) (List.mem_finRange k) r.loadingFailed
  obtain ⟨-, lines, -⟩ := failLoads_frame r
  rw [lines]
  refine Option.eq_none_iff_forall_ne_some.2 fun g record => ?_
  obtain ⟨g0, slot0, -⟩ := after k g (groupRecord_eq_some.1 record)
  exact no_group_of_dissolve k r1 g0 slot0

/-! ### The failed read (R174, R203, R204) -/

/-- The state in which an area fault leaves the part (R203). -/
theorem areaFault_active {x : State} (active : x.rt.mode = .running ∨ x.port.starting = true) :
    x.areaFault = { x with
      rt := ({ x.rt with mode := .areaFault } : Runtime).failLoads
      port := { x.port.haltEngine with starting := false, events := x.port.events ||| 8 } } :=
  if_pos active

/-- An area fault in AREA_FAULT raises the event again. -/
theorem areaFault_again {x : State} (mode : x.rt.mode = .areaFault) (starting : x.port.starting = false) :
    x.areaFault = { x with port := { x.port with events := x.port.events ||| 8 } } := by
  unfold State.areaFault
  rw [if_neg (by rw [mode, starting]; simp), if_pos mode]
  rfl

/-- The port once the outstanding read burst has failed: a recovery whose header load it was has ended (R204). -/
def Port.afterRead (b : ReadBurst) (p : Port) : Port :=
  if b.user = .header ∧ p.recovering = true then { p with job := none, recovering := false } else p

theorem failRead_live {s : State} {b : ReadBurst} (read : s.rt.read = some b) (live : b.live = true) :
    s.failRead = State.areaFault { s with rt := { s.rt with read := none }, port := s.port.afterRead b } := by
  unfold State.failRead Port.afterRead
  rw [read]
  dsimp only
  rw [if_pos live]
  split <;> rfl

theorem failRead_dead {s : State} {b : ReadBurst} (read : s.rt.read = some b) (dead : b.live = false) :
    s.failRead = { s with rt := { s.rt with read := none } } := by
  unfold State.failRead
  rw [read]
  dsimp only
  rw [if_neg (by rw [dead]; nofun)]
  rfl

/-- Both ends of the read path's patience fail the outstanding burst (R174). -/
theorem exec_failedRead {c : Instr} {s : State} {b : ReadBurst}
    (fails : c = .busErrorCompletion .read
      ∨ c = .completionTimeout .read ∧ Due.completionTimeout .read ∈ s.due ∧ 4 ≤ b.timer)
    (read : s.rt.read = some b) (live : b.live = true) :
    exec c s = .next (State.areaFault { s with
      due := if c = .busErrorCompletion .read then s.due else s.due.erase (.completionTimeout .read)
      rt := { s.rt with read := none }
      port := s.port.afterRead b }) := by
  rcases fails with rfl | ⟨rfl, due, late⟩
  · rw [if_pos rfl]
    exact congrArg Host.Outcome.next (failRead_live read live)
  · rw [if_neg nofun]
    have failed := failRead_live (s := { s with due := s.due.erase (.completionTimeout .read) }) read live
    have ran : State.readLate { s with due := s.due.erase (.completionTimeout .read) } = true := by
      rw [readLate_iff]
      exact ⟨b, read, live, late⟩
    show Host.Outcome.next (s.takeDue (.completionTimeout .read)) = _
    rw [takeDue_eq, if_pos due]
    exact congrArg Host.Outcome.next ((if_pos ran).trans failed)

theorem afterRead_kept (b : ReadBurst) (p : Port) :
    p.afterRead b = { p with job := (p.afterRead b).job, recovering := (p.afterRead b).recovering } := by
  unfold Port.afterRead
  split <;> rfl

/-- Settles O27: the burst's failure by the mode it meets, and what the end of every load leaves. -/
theorem failedReadIsAnAreaFault : Obligations.FailedReadIsAnAreaFault := by
  refine ⟨fun c b s fails read live active => ?active, fun c b s fails read live mode starting header recovering => ?again,
    fun b s read dead => congrArg Host.Outcome.next (failRead_dead read dead)⟩
  case active =>
    have ran := exec_failedRead fails read live
    have port := afterRead_kept b s.port
    generalize s.port.afterRead b = p at port ran
    rw [areaFault_active (by rw [port]; exact active)] at ran
    have loads := failLoads_extends (.refl ({ s.rt with read := none, mode := .areaFault } : Runtime))
    have free := failLoads_read (r := { s.rt with read := none, mode := .areaFault }) rfl
    have loading := fun u => failLoads_loading (u := u) (r := { s.rt with read := none, mode := .areaFault })
    have others := fun u => failLoads_other (u := u) (r := { s.rt with read := none, mode := .areaFault })
    have groups := fun k => failLoads_groupRecord k { s.rt with read := none, mode := .areaFault }
    obtain ⟨-, -, fetches, -⟩ := failLoads_frame { s.rt with read := none, mode := .areaFault }
    generalize Runtime.failLoads { s.rt with read := none, mode := .areaFault } = r at *
    rw [port] at ran
    exact ⟨_, ran, loads.mode, rfl, rfl, free, fetches, rfl, rfl, rfl, rfl, rfl, rfl, rfl, rfl, rfl, rfl, loading, others,
      groups, loads.tail, loads.directory, loads.settings, rfl, rfl, rfl, rfl⟩
  case again =>
    have ran := exec_failedRead fails read live
    have port : s.port.afterRead b = { s.port with job := none, recovering := false } := if_pos ⟨header, recovering⟩
    rw [port] at ran
    refine ran.trans (congrArg Host.Outcome.next (areaFault_again ?_ ?_))
    · exact mode
    · exact starting

end Machine

end Sys2Proof

/-! PROOFS. A member leaves its group (R151, R161 to R163): the slot once it is off the list, the begin works that a freed slot
lets post, and the run that acts between the two. -/

namespace Sys2Proof

namespace Machine

/-! ### The slot of a line while work is posted -/

theorem post_slot (u : UnitIx) (w : Work) (k : LineIx) (r : Runtime) : (r.post u w).lines[k].slot = r.lines[k].slot := by
  unfold Runtime.post
  split
  · simp
  · by_cases e : k = r.units[u].config.line
    · subst e
      rw [updLine_line, list_slot]
    · rw [updLine_other e]

theorem freeSlot_slot (k : LineIx) (r : Runtime) : (r.freeSlot k).lines[k].slot = .free := by
  have cleared : (r.updLine k LineRecord.clearSlot).lines[k].slot = .free := by
    rw [updLine_line]
    rfl
  unfold Runtime.freeSlot
  rw [eachUnit_field (fun r : Runtime => r.lines[k].slot) (fun u r => ?_)]
  · exact cleared
  · split
    · rw [post_slot, Runtime.updUnit_lines]
    · rfl

theorem dissolve_slot {k : LineIx} {r : Runtime} {g : Group} (slot : r.lines[k].slot = .group g) :
    (r.dissolve k).lines[k].slot = .free := by
  unfold Runtime.dissolve
  rw [groupRecord_eq_some.2 slot]
  exact freeSlot_slot k _

theorem groupRecord_eq_none {l : LineRecord} (h : l.slot = .free) : l.groupRecord = none := by
  unfold LineRecord.groupRecord
  rw [h]

/-! ### The group once its member is off the list (R162, R163) -/

/-- What a group without a member leaves on its line: the others, or no group. -/
def LineRecord.HasLeft (g : Group) (l : LineRecord) : Prop := l.groupRecord = if g.members = [] then none else some g

theorem dissolveEmpty_of_members {k : LineIx} {r : Runtime} {g : Group} (slot : r.lines[k].slot = .group g)
    (members : g.members ≠ []) : r.dissolveEmpty k = r := by
  unfold Runtime.dissolveEmpty
  rw [groupRecord_eq_some.2 slot]
  exact if_neg (mt List.isEmpty_iff.1 members)

theorem dissolveEmpty_of_nil {k : LineIx} {r : Runtime} {g : Group} (slot : r.lines[k].slot = .group g)
    (members : g.members = []) : r.dissolveEmpty k = r.dissolve k := by
  unfold Runtime.dissolveEmpty
  rw [groupRecord_eq_some.2 slot]
  exact if_pos (List.isEmpty_iff.2 members)

theorem dissolveEmpty_hasLeft {k : LineIx} {r : Runtime} {g : Group} (slot : r.lines[k].slot = .group g) :
    ((r.dissolveEmpty k).lines[k]).HasLeft g := by
  unfold LineRecord.HasLeft
  by_cases members : g.members = []
  · rw [if_pos members, dissolveEmpty_of_nil slot members]
    exact groupRecord_eq_none (dissolve_slot slot)
  · rw [if_neg members, dissolveEmpty_of_members slot members]
    exact groupRecord_eq_some.2 slot

theorem dissolveEmpty_not_alone {k : LineIx} {r : Runtime} {g : Group} (slot : r.lines[k].slot = .group g) (u : UnitIx) :
    (r.dissolveEmpty k).lines[k].slot ≠ .alone u := by
  by_cases members : g.members = []
  · rw [dissolveEmpty_of_nil slot members, dissolve_slot slot]
    nofun
  · rw [dissolveEmpty_of_members slot members, slot]
    nofun

theorem leaveGroup_of_member {k : LineIx} {u : UnitIx} {r : Runtime} {g : Group} (slot : r.lines[k].slot = .group g)
    (member : g.isMember u = true) (act : Runtime → Runtime) :
    r.leaveGroup k u act = (act (r.takeOffGroup k u g)).dissolveEmpty k := by
  unfold Runtime.leaveGroup
  rw [groupRecord_eq_some.2 slot]
  exact if_pos member

theorem leaveGroup_of_other {k : LineIx} {u : UnitIx} {r : Runtime} {g : Group} (slot : r.lines[k].slot = .group g)
    (other : g.isMember u = false) (act : Runtime → Runtime) : r.leaveGroup k u act = act r := by
  unfold Runtime.leaveGroup
  rw [groupRecord_eq_some.2 slot]
  exact if_neg (by rw [other]; nofun)

theorem takeOffGroup_unit (k : LineIx) (u : UnitIx) (g : Group) (r : Runtime) :
    (r.takeOffGroup k u g).units[u] = { r.units[u] with loadStep := .idle } := by
  unfold Runtime.takeOffGroup
  rw [Runtime.updLine_units, updUnit_unit]

theorem takeOffGroup_other {u v : UnitIx} (ne : v ≠ u) (k : LineIx) (g : Group) (r : Runtime) :
    (r.takeOffGroup k u g).units[v] = r.units[v] := by
  unfold Runtime.takeOffGroup
  rw [Runtime.updLine_units, updUnit_other ne]

@[simp] theorem takeOffGroup_mode (k : LineIx) (u : UnitIx) (g : Group) (r : Runtime) :
    (r.takeOffGroup k u g).mode = r.mode := by
  unfold Runtime.takeOffGroup
  simp

/-- With no transaction outstanding the member leaves the line's work as it was. -/
theorem takeOffGroup_idle {k : LineIx} {r : Runtime} (txn : r.lines[k].txn = none) (u : UnitIx) (g : Group) :
    (r.takeOffGroup k u g).lines[k] = { r.lines[k] with slot := .group (g.without u) } := by
  have idle : (r.lines[k]).servesMember u = false := by
    unfold LineRecord.servesMember
    rw [txn]
  unfold Runtime.takeOffGroup
  rw [updLine_line, Runtime.updUnit_lines]
  dsimp only
  rw [idle]
  rfl

theorem without_not_member (u : UnitIx) (g : Group) : (g.without u).isMember u = false := by
  rw [Group.without_isMember, decide_eq_false (not_not_intro rfl)]
  rfl

/-! ### A run that fails (R71, R162) -/

section Withdraw

variable {k : LineIx} {u : UnitIx} {r : Runtime} {g : Group}

/-- The line of a unit that is being withdrawn keeps its slot until the unit leaves its group. -/
theorem delisted_slot (slot : r.lines[r.units[u].config.line].slot = .group g) :
    (r.updLine r.units[u].config.line (LineRecord.withoutUnit u)).lines[r.units[u].config.line].slot = .group g := by
  rw [updLine_line, withoutUnit_slot]
  exact slot

theorem withdraw_of_member (line : r.units[u].config.line = k) (slot : r.lines[k].slot = .group g)
    (member : g.isMember u = true) : ((r.withdraw u).lines[k]).HasLeft (g.without u) := by
  subst line
  have off := takeOffGroup_line r.units[u].config.line u g (r.updLine r.units[u].config.line (LineRecord.withoutUnit u))
  have left : (r.unlisted u).lines = (Runtime.dissolveEmpty r.units[u].config.line (Runtime.takeOffGroup
      r.units[u].config.line u g (r.updLine r.units[u].config.line (LineRecord.withoutUnit u)))).lines := by
    unfold Runtime.unlisted
    rw [Runtime.updUnit_lines, leaveGroup_of_member (delisted_slot slot) member]
    rfl
  rw [withdraw_eq, if_neg (by rw [left]; exact dissolveEmpty_not_alone off u), left]
  exact dissolveEmpty_hasLeft off

theorem withdraw_of_other (line : r.units[u].config.line = k) (slot : r.lines[k].slot = .group g)
    (other : g.isMember u = false) : (r.withdraw u).lines[k].slot = .group g := by
  subst line
  have kept : (r.unlisted u).lines[r.units[u].config.line].slot = .group g := by
    unfold Runtime.unlisted
    rw [Runtime.updUnit_lines, leaveGroup_of_other (delisted_slot slot) other]
    exact delisted_slot slot
  rw [withdraw_eq, if_neg (by rw [kept]; nofun)]
  exact kept

/-- A member's run fails: it is off the list, and its group goes with it where it was the last (R162, R163). -/
theorem failRun_of_member (line : r.units[u].config.line = k) (slot : r.lines[k].slot = .group g)
    (member : g.isMember u = true) (c : FailureCause) : ((r.failRun u c).lines[k]).HasLeft (g.without u) := by
  rw [failRun_lines]
  exact withdraw_of_member line slot member

theorem failRun_of_other (line : r.units[u].config.line = k) (slot : r.lines[k].slot = .group g)
    (other : g.isMember u = false) (c : FailureCause) : (r.failRun u c).lines[k].slot = .group g := by
  rw [failRun_lines]
  exact withdraw_of_other line slot other

end Withdraw

/-! ### The begin works that a freed slot lets post (R135, R151) -/

/-- The unit is at SLOT_WAIT for the line's slot. -/
def Runtime.atSlotWait (k : LineIx) (r : Runtime) (u : UnitIx) : Bool :=
  decide (r.units[u].loadStep = .slotWait ∧ r.units[u].config.line = k)

theorem atSlotWait_iff {k : LineIx} {r : Runtime} {u : UnitIx} :
    r.atSlotWait k u = true ↔ r.units[u].loadStep = .slotWait ∧ r.units[u].config.line = k := decide_eq_true_iff

/-- A unit at SLOT_WAIT takes its load step and posts its begin work. -/
def Runtime.postBegin (k : LineIx) (u : UnitIx) (r : Runtime) : Runtime :=
  if r.units[u].loadStep = .slotWait ∧ r.units[u].config.line = k then
    (r.updUnit u fun x => { x with loadStep := .beginPosted }).post u .beginLoad
  else r

/-- The line's slot is FREE and its fetch is dropped; no unit has posted yet. -/
def Runtime.slotCleared (k : LineIx) (r : Runtime) : Runtime :=
  { r.updLine k LineRecord.clearSlot with
    fetchList := r.fetchList.filter fun q => decide (q.line ≠ k)
    read := r.read.map (dropFetch k) }

theorem freeSlot_eq (k : LineIx) (r : Runtime) : r.freeSlot k = (r.slotCleared k).eachUnit (Runtime.postBegin k) := rfl

theorem slotCleared_frame (k : LineIx) (r : Runtime) :
    (r.slotCleared k).units = r.units ∧ (r.slotCleared k).lines[k] = (r.lines[k]).clearSlot := by
  refine ⟨?_, ?_⟩
  · show (r.updLine k LineRecord.clearSlot).units = r.units
    simp
  · show (r.updLine k LineRecord.clearSlot).lines[k] = (r.lines[k]).clearSlot
    rw [updLine_line]

/-- Posting changes no unit's load step and no configuration. -/
theorem post_step (u v : UnitIx) (w : Work) (r : Runtime) :
    (r.post u w).units[v].loadStep = r.units[v].loadStep ∧ (r.post u w).units[v].config = r.units[v].config := by
  unfold Runtime.post
  split
  · by_cases e : v = u
    · subst e
      rw [updUnit_unit]
      exact ⟨rfl, rfl⟩
    · rw [updUnit_other e]
      exact ⟨rfl, rfl⟩
  · simp

theorem postBegin_other {u v : UnitIx} (ne : v ≠ u) (k : LineIx) (r : Runtime) :
    (r.postBegin k u).units[v].loadStep = r.units[v].loadStep ∧ (r.postBegin k u).units[v].config = r.units[v].config := by
  unfold Runtime.postBegin
  split
  · obtain ⟨step, config⟩ := post_step u v .beginLoad (r.updUnit u fun x => { x with loadStep := .beginPosted })
    rw [step, config, updUnit_other ne]
    exact ⟨rfl, rfl⟩
  · exact ⟨rfl, rfl⟩

theorem postBegin_own {k : LineIx} {u : UnitIx} {r : Runtime} (h : r.atSlotWait k u = true) :
    (r.postBegin k u).units[u].loadStep = .beginPosted := by
  obtain ⟨step, -⟩ := post_step u u .beginLoad (r.updUnit u fun x => { x with loadStep := .beginPosted })
  rw [Runtime.postBegin, if_pos (atSlotWait_iff.1 h), step, updUnit_unit]

theorem atSlotWait_postBegin {u v : UnitIx} (ne : v ≠ u) (k : LineIx) (r : Runtime) :
    (r.postBegin k u).atSlotWait k v = r.atSlotWait k v := by
  obtain ⟨step, config⟩ := postBegin_other ne k r
  unfold Runtime.atSlotWait
  rw [step, config]

/-- A unit at SLOT_WAIT has posted once the slot is free (R151). -/
theorem freeSlot_posts {k : LineIx} {u : UnitIx} {r : Runtime} (h : r.atSlotWait k u = true) :
    (r.freeSlot k).units[u].loadStep = .beginPosted := by
  obtain ⟨units, -⟩ := slotCleared_frame k r
  have waits : (r.slotCleared k).atSlotWait k u = true := by
    rw [atSlotWait_iff] at h ⊢
    rw [units]
    exact h
  obtain ⟨r1, before, after⟩ := foldl_around
    (R := fun a b : Runtime => b.units[u].loadStep = a.units[u].loadStep ∧ b.units[u].config = a.units[u].config)
    (fun _ => ⟨rfl, rfl⟩) (fun ⟨step, config⟩ ⟨step', config'⟩ => ⟨step'.trans step, config'.trans config⟩)
    (act := fun r v => r.postBegin k v) (i := u)
    (fun v ne r => postBegin_other ne.symm k r) (List.nodup_finRange _) (List.mem_finRange u) (r.slotCleared k)
  obtain ⟨stepBefore, configBefore⟩ := before
  obtain ⟨stepAfter, -⟩ := after
  have waits1 : r1.atSlotWait k u = true := by
    rw [atSlotWait_iff] at waits ⊢
    rw [stepBefore, configBefore]
    exact waits
  exact stepAfter.trans (postBegin_own waits1)

/-- With no transaction on the line, a unit at SLOT_WAIT with no work of its own joins at the tail (R135). -/
theorem postBegin_line {k : LineIx} {u : UnitIx} {r : Runtime} (h : r.atSlotWait k u = true)
    (txn : r.lines[k].txn = none) (waits : (r.lines[k]).waits u = false) :
    (r.postBegin k u).lines[k] = { r.lines[k] with waitList := r.lines[k].waitList ++ [.single u .beginLoad] } := by
  have serves : (r.lines[k]).serves u = false := by
    unfold LineRecord.serves
    rw [txn]
  have own := atSlotWait_iff.1 h
  have line : (r.updUnit u fun x => { x with loadStep := .beginPosted }).units[u].config.line = k := by
    rw [updUnit_unit]
    exact own.2
  have lines : (r.updUnit u fun x => { x with loadStep := .beginPosted }).lines = r.lines := by simp
  rw [Runtime.postBegin, if_pos own, post_idle line (by rw [lines]; exact waits) (by rw [lines]; exact serves), lines]
  exact Vector.getElem_set_self ..

theorem foldl_postBegin {k : LineIx} (l : List UnitIx) (nodup : l.Nodup) (r : Runtime) (txn : r.lines[k].txn = none)
    (waits : ∀ v ∈ l, r.atSlotWait k v = true → (r.lines[k]).waits v = false) :
    (l.foldl (fun r v => r.postBegin k v) r).lines[k].waitList
      = r.lines[k].waitList ++ (l.filter (r.atSlotWait k)).map (Entry.single · .beginLoad) := by
  induction l generalizing r with
  | nil => simp
  | cons u l ih =>
    obtain ⟨fresh, nodup⟩ := List.nodup_cons.1 nodup
    have apart : ∀ v ∈ l, v ≠ u := fun v mem e => fresh (e ▸ mem)
    have others : l.filter ((r.postBegin k u).atSlotWait k) = l.filter (r.atSlotWait k) :=
      List.filter_congr fun v mem => atSlotWait_postBegin (apart v mem) k r
    rw [List.foldl_cons]
    by_cases own : r.atSlotWait k u = true
    · have line := postBegin_line own txn (waits u List.mem_cons_self own)
      rw [ih nodup _ (by rw [line]; exact txn) fun v mem at_ => ?_, others, line, List.filter_cons_of_pos own]
      · simp
      · rw [atSlotWait_postBegin (apart v mem)] at at_
        have free := waits v (List.mem_cons_of_mem _ mem) at_
        rw [line]
        rw [waits_eq_false] at free ⊢
        intro w inList
        rcases List.mem_append.1 inList with old | new
        · exact free w old
        · cases List.mem_singleton.1 new
          exact apart u mem rfl
    · have same : r.postBegin k u = r := if_neg (mt atSlotWait_iff.2 own)
      rw [same, List.filter_cons_of_neg own]
      exact ih nodup r txn fun v mem => waits v (List.mem_cons_of_mem _ mem)

/-- The begin works join behind the list in ascending index (R135, R151). -/
theorem freeSlot_waitList {k : LineIx} {r : Runtime} (txn : r.lines[k].txn = none)
    (waits : ∀ v, r.atSlotWait k v = true → (r.lines[k]).waits v = false) :
    (r.freeSlot k).lines[k].waitList
      = r.lines[k].waitList ++ ((List.finRange Config.units).filter (r.atSlotWait k)).map (Entry.single · .beginLoad) := by
  obtain ⟨units, line⟩ := slotCleared_frame k r
  have waiting : (r.slotCleared k).atSlotWait k = r.atSlotWait k := by
    funext v
    unfold Runtime.atSlotWait
    rw [units]
  have posted := foldl_postBegin (k := k) (List.finRange Config.units) (List.nodup_finRange _) (r.slotCleared k)
    (by rw [line]; exact txn) (fun v _ at_ => by
      rw [waiting] at at_
      rw [line]
      exact waits v at_)
  rw [waiting, line] at posted
  rw [freeSlot_eq]
  exact posted

/-! ### The last member has left (R163) -/

section LastMember

variable {k : LineIx} {r : Runtime} {g : Group}

/-- The line of a group that is being dissolved, its entry and its transaction gone. -/
def LineRecord.ungrouped (l : LineRecord) : LineRecord :=
  { (if l.servesGroup then l.abandon else l) with
    waitList := (if l.servesGroup then l.abandon else l).waitList.filter fun e => decide (e ≠ .group) }

theorem dissolveEmpty_frees (slot : r.lines[k].slot = .group g) (members : g.members = []) :
    r.dissolveEmpty k = (r.updLine k LineRecord.ungrouped).freeSlot k := by
  rw [dissolveEmpty_of_nil slot members, Runtime.dissolve, groupRecord_eq_some.2 slot]
  dsimp only
  rw [members]
  rfl

theorem ungrouped_idle {l : LineRecord} (txn : l.txn = none) :
    l.ungrouped = { l with waitList := l.waitList.filter fun e => decide (e ≠ .group) } := by
  have idle : l.servesGroup = false := by
    unfold LineRecord.servesGroup
    rw [txn]
  unfold LineRecord.ungrouped
  rw [idle]
  rfl

theorem dissolveEmpty_posts (slot : r.lines[k].slot = .group g) (members : g.members = []) {u : UnitIx}
    (h : r.atSlotWait k u = true) : (r.dissolveEmpty k).units[u].loadStep = .beginPosted := by
  rw [dissolveEmpty_frees slot members]
  refine freeSlot_posts ?_
  rw [atSlotWait_iff] at h ⊢
  rw [Runtime.updLine_units]
  exact h

theorem dissolveEmpty_waitList (slot : r.lines[k].slot = .group g) (members : g.members = [])
    (txn : r.lines[k].txn = none) (waits : ∀ v, r.atSlotWait k v = true → (r.lines[k]).waits v = false) :
    (r.dissolveEmpty k).lines[k].waitList = (r.lines[k].waitList.filter fun e => decide (e ≠ .group))
      ++ ((List.finRange Config.units).filter (r.atSlotWait k)).map (Entry.single · .beginLoad) := by
  have waiting : (r.updLine k LineRecord.ungrouped).atSlotWait k = r.atSlotWait k := by
    funext v
    unfold Runtime.atSlotWait
    rw [Runtime.updLine_units]
  have line : (r.updLine k LineRecord.ungrouped).lines[k]
      = { r.lines[k] with waitList := r.lines[k].waitList.filter fun e => decide (e ≠ .group) } := by
    rw [updLine_line, ungrouped_idle txn]
  rw [dissolveEmpty_frees slot members, freeSlot_waitList (by rw [line]; exact txn) fun v at_ => ?_, line, waiting]
  rw [waiting] at at_
  have free := waits v at_
  rw [line]
  rw [waits_eq_false] at free ⊢
  exact fun w mem => free w (List.mem_filter.1 mem).1

end LastMember

end Machine

end Sys2Proof

/-! PROOFS. What the exchanges of a group's rounds make of its members, and what follows a round (R64, R135, R156 to R164,
R168). -/

namespace Sys2Proof

namespace Machine

/-! ### A runtime in which a member is off its group's list (R162) -/

/-- Unit `u` has left the group `g` of its line `k`; nothing else has changed but its own record, and what its transaction
leaves. -/
structure Runtime.OffGroup (k : LineIx) (u : UnitIx) (g : Group) (r x : Runtime) : Prop where
  slot : x.lines[k].slot = .group (g.without u)
  line : x.units[u].config.line = k
  step : x.units[u].loadStep = .idle
  others : ∀ v, v ≠ u → x.units[v] = r.units[v]
  idle : r.lines[k].txn = none → x.lines[k] = { r.lines[k] with slot := .group (g.without u) }
  mode : x.mode = r.mode

theorem takeOffGroup_offGroup {k : LineIx} {u : UnitIx} {r : Runtime} (line : r.units[u].config.line = k) (g : Group) :
    r.OffGroup k u g (r.takeOffGroup k u g) where
  slot := takeOffGroup_line k u g r
  line := by rw [takeOffGroup_unit]; exact line
  step := by rw [takeOffGroup_unit]
  others _ ne := takeOffGroup_other ne k g r
  idle txn := takeOffGroup_idle txn u g
  mode := takeOffGroup_mode k u g r

/-- A unit other than the member is at SLOT_WAIT for the line's slot. -/
abbrev Runtime.AlsoWaits (k : LineIx) (u : UnitIx) (r : Runtime) (v : UnitIx) : Prop :=
  v ≠ u ∧ r.units[v].loadStep = .slotWait ∧ r.units[v].config.line = k

/-- The begin works of the units at SLOT_WAIT in ascending index, the member's among them where it has one (R135, R151). -/
def Runtime.begins (k : LineIx) (u : UnitIx) (r : Runtime) (own : Bool) : List Entry :=
  ((List.finRange Config.units).filter fun v => decide (own = true ∧ v = u ∨ r.AlsoWaits k u v)).map
    (Entry.single · .beginLoad)

/-- The member is the last of its group, on a line with no transaction and no work of the units that the freed slot lets
post. -/
def Runtime.LastOut (k : LineIx) (u : UnitIx) (g : Group) (r : Runtime) : Prop :=
  (g.without u).members = [] ∧ (r.lines[k]).txn = none ∧ (r.lines[k]).waits u = false
    ∧ ∀ v : UnitIx, r.AlsoWaits k u v → (r.lines[k]).waits v = false

/-- The line's list without the group's entry. -/
def LineRecord.withoutGroup (l : LineRecord) : List Entry := l.waitList.filter fun e => decide (e ≠ .group)

/-- The member has taken a load step: where its leaving has freed the slot it has posted with the units at SLOT_WAIT, in
ascending index, else it waits (R149, R151, R163). -/
def Runtime.TakesStep (k : LineIx) (u : UnitIx) (g : Group) (r t : Runtime) : Prop :=
  t.units[u].loadStep = (if (g.without u).members = [] then .beginPosted else .slotWait)
    ∧ (r.LastOut k u g → t.lines[k].waitList = (r.lines[k]).withoutGroup ++ r.begins k u true)

section Off

variable {k : LineIx} {u : UnitIx} {g : Group} {r x : Runtime} (h : r.OffGroup k u g x)

include h

theorem Runtime.OffGroup.updUnit {f : UnitRecord → UnitRecord} (config : (f x.units[u]).config = x.units[u].config)
    (step : (f x.units[u]).loadStep = x.units[u].loadStep) : r.OffGroup k u g (x.updUnit u f) where
  slot := by rw [Runtime.updUnit_lines]; exact h.slot
  line := by rw [updUnit_unit, config]; exact h.line
  step := by rw [updUnit_unit, step]; exact h.step
  others v ne := by rw [updUnit_other ne]; exact h.others v ne
  idle txn := by rw [Runtime.updUnit_lines]; exact h.idle txn
  mode := by rw [Runtime.updUnit_mode]; exact h.mode

theorem Runtime.OffGroup.not_free : x.lines[x.units[u].config.line].slot ≠ .free := by
  have slot := h.slot
  have line := h.line
  subst line
  rw [slot]
  nofun

/-- In AREA_FAULT the unit's run fails in place of its load step; otherwise it waits for the slot that the group still
holds (R149). -/
theorem Runtime.OffGroup.takeLoadStep :
    (r.mode = .areaFault → x.takeLoadStep u = x.failRun u .area)
      ∧ (r.mode ≠ .areaFault → x.takeLoadStep u = x.updUnit u fun y => { y with loadStep := .slotWait }) := by
  unfold Runtime.takeLoadStep
  rw [h.mode]
  exact ⟨fun fault => if_pos fault, fun mode => by rw [if_neg mode, if_neg h.not_free]⟩

theorem Runtime.OffGroup.failRun_slot (c : FailureCause) : (x.failRun u c).lines[k].slot = .group (g.without u) :=
  failRun_of_other h.line h.slot (without_not_member u g) c

theorem Runtime.OffGroup.takeLoadStep_slot : (x.takeLoadStep u).lines[k].slot = .group (g.without u) := by
  obtain ⟨fails, waits⟩ := h.takeLoadStep
  by_cases fault : r.mode = .areaFault
  · rw [fails fault]
    exact h.failRun_slot .area
  · rw [waits fault, Runtime.updUnit_lines]
    exact h.slot

/-- With the slot freed by the last member, the units at SLOT_WAIT are those found so before, and the member itself where its
run has taken a load step. -/
theorem Runtime.OffGroup.atSlotWait {y : Runtime} (others : ∀ v, v ≠ u → y.units[v].loadStep = x.units[v].loadStep
      ∧ y.units[v].config = x.units[v].config) {v : UnitIx} (ne : v ≠ u) :
    y.atSlotWait k v = true ↔ r.units[v].loadStep = .slotWait ∧ r.units[v].config.line = k := by
  obtain ⟨step, config⟩ := others v ne
  rw [atSlotWait_iff, step, config, h.others v ne]

theorem Runtime.OffGroup.waitsForSlot :
    r.TakesStep k u g ((x.updUnit u fun y => { y with loadStep := .slotWait }).dissolveEmpty k) := by
  have slot : (x.updUnit u fun y => { y with loadStep := .slotWait }).lines[k].slot = .group (g.without u) := by
    rw [Runtime.updUnit_lines]
    exact h.slot
  have own : (x.updUnit u fun y => { y with loadStep := .slotWait }).atSlotWait k u = true := by
    rw [atSlotWait_iff, updUnit_unit]
    exact ⟨rfl, h.line⟩
  refine ⟨?_, fun ⟨last, txn, free, waits⟩ => ?_⟩
  · by_cases members : (g.without u).members = []
    · rw [if_pos members]
      exact dissolveEmpty_posts slot members own
    · rw [if_neg members, dissolveEmpty_of_members slot members, updUnit_unit]
  · have line := h.idle txn
    have waiting : (x.updUnit u fun y => { y with loadStep := .slotWait }).atSlotWait k
        = fun v => decide (true = true ∧ v = u ∨ r.AlsoWaits k u v) := by
      funext v
      rw [Bool.eq_iff_iff, decide_eq_true_iff]
      by_cases e : v = u
      · subst e
        exact ⟨fun _ => Or.inl ⟨rfl, rfl⟩, fun _ => own⟩
      · rw [h.atSlotWait (fun w ne => by rw [updUnit_other ne]; exact ⟨rfl, rfl⟩) e]
        exact ⟨fun at_ => Or.inr ⟨e, at_⟩, fun at_ => (at_.resolve_left fun own => e own.2).2⟩
    rw [dissolveEmpty_waitList slot last, waiting, Runtime.updUnit_lines, line]
    · rfl
    · rw [Runtime.updUnit_lines, line]
      exact txn
    · intro v at_
      rw [Runtime.updUnit_lines, line]
      rw [waiting] at at_
      rcases of_decide_eq_true at_ with ⟨-, rfl⟩ | other
      · exact free
      · exact waits v other

/-- The member posts its restoring work before the freed slot lets the others post (log 27). -/
theorem Runtime.OffGroup.postsFirst (w : Work) (lastOut : r.LastOut k u g) :
    ((x.post u w).dissolveEmpty k).lines[k].waitList
      = (r.lines[k]).withoutGroup ++ .single u w :: r.begins k u false := by
  obtain ⟨last, txn, free, waits⟩ := lastOut
  have line := h.idle txn
  have serves : (x.lines[k]).serves u = false := by
    unfold LineRecord.serves
    rw [line]
    dsimp only
    rw [txn]
  have posted : (x.post u w).lines[k] = { x.lines[k] with waitList := x.lines[k].waitList ++ [.single u w] } := by
    rw [post_idle h.line (by rw [line]; exact free) serves]
    exact Vector.getElem_set_self ..
  have slot : (x.post u w).lines[k].slot = .group (g.without u) := by
    rw [post_slot]
    exact h.slot
  have waiting : (x.post u w).atSlotWait k = fun v => decide (false = true ∧ v = u ∨ r.AlsoWaits k u v) := by
    funext v
    rw [Bool.eq_iff_iff, decide_eq_true_iff]
    by_cases e : v = u
    · subst e
      obtain ⟨step, -⟩ := post_step v v w x
      rw [atSlotWait_iff, step, h.step]
      exact ⟨fun ⟨idle, _⟩ => (nomatch idle),
        fun at_ => at_.elim (fun ⟨no, _⟩ => (nomatch no)) fun ⟨ne, _⟩ => absurd rfl ne⟩
    · rw [h.atSlotWait (fun v _ => post_step u v w x) e]
      exact ⟨fun at_ => Or.inr ⟨e, at_⟩, fun at_ => (at_.resolve_left fun own => e own.2).2⟩
  rw [dissolveEmpty_waitList slot last, waiting, posted, line]
  · simp [LineRecord.withoutGroup, Runtime.begins]
  · rw [posted, line]
    exact txn
  · intro v at_
    rw [waiting] at at_
    have other : r.AlsoWaits k u v := (of_decide_eq_true at_).resolve_left fun ⟨no, _⟩ => nomatch no
    have before := waits v other
    rw [posted, line]
    rw [waits_eq_false] at before ⊢
    intro w' mem
    rcases List.mem_append.1 mem with old | new
    · exact before w' old
    · cases List.mem_singleton.1 new
      exact other.1 rfl

/-- The run of the unit fails once it is off the list. -/
theorem Runtime.OffGroup.failsOut (c : FailureCause) :
    (((x.failRun u c).dissolveEmpty k).lines[k]).HasLeft (g.without u)
      ∧ ((x.failRun u c).dissolveEmpty k).units[u].run = .failed
      ∧ ((x.failRun u c).dissolveEmpty k).units[u].cause = c := by
  obtain ⟨run, cause, -⟩ := failRun_unit u c x
  have kept := dissolveEmpty_keeps k (.refl (x.failRun u c)) u
  exact ⟨dissolveEmpty_hasLeft (h.failRun_slot c), (kept.field UnitRecord.run fun _ _ _ => rfl).trans run,
    (kept.field UnitRecord.cause fun _ _ _ => rfl).trans cause⟩

end Off

theorem Runtime.OffGroup.of_updUnit {k : LineIx} {u : UnitIx} {g : Group} {r x : Runtime} {f : UnitRecord → UnitRecord}
    (h : (r.updUnit u f).OffGroup k u g x) : r.OffGroup k u g x where
  slot := h.slot
  line := h.line
  step := h.step
  others v ne := (h.others v ne).trans (updUnit_other ne f r)
  idle txn := by
    have idle := h.idle
    rw [Runtime.updUnit_lines] at idle
    exact idle txn
  mode := h.mode.trans (Runtime.updUnit_mode u f r)

/-! ### What becomes of a member (R156, R158, R160, R161) -/

/-- The member has left to load alone: it takes a load step, or in AREA_FAULT its run has failed (R149, R158). -/
def Runtime.LoadsAlone (k : LineIx) (u : UnitIx) (g : Group) (r t : Runtime) : Prop :=
  (t.lines[k]).HasLeft (g.without u) ∧ t.units[u].aloneMark = true
    ∧ (r.mode = .areaFault → t.units[u].run = .failed ∧ t.units[u].cause = .area)
    ∧ (r.mode ≠ .areaFault → t.units[u].run = r.units[u].run ∧ r.TakesStep k u g t)

/-- The member's run has failed, and it is out of the group (R71, R162). -/
def Runtime.FailsOut (k : LineIx) (u : UnitIx) (g : Group) (c : FailureCause) (t : Runtime) : Prop :=
  (t.lines[k]).HasLeft (g.without u) ∧ t.units[u].run = .failed ∧ t.units[u].cause = c

theorem failRun_aloneMark (u : UnitIx) (c : FailureCause) (r : Runtime) :
    (r.failRun u c).units[u].aloneMark = r.units[u].aloneMark := by
  rw [show (r.failRun u c).units[u] = _ from failRun_kept u c r]
  split
  · rw [closed_kept]
    rfl
  · rfl

section Member

variable {k : LineIx} {u : UnitIx} {g : Group} {r : Runtime} (line : r.units[u].config.line = k)
  (slot : r.lines[k].slot = .group g) (member : g.isMember u = true)

include line slot member

theorem failRun_failsOut (c : FailureCause) : Runtime.FailsOut k u g c (r.failRun u c) := by
  obtain ⟨run, cause, -⟩ := failRun_unit u c r
  exact ⟨failRun_of_member line slot member c, run, cause⟩

theorem leaveToLoadAlone_loadsAlone : r.LoadsAlone k u g (r.leaveToLoadAlone k u) := by
  have marked : (r.updUnit u fun x => { x with aloneMark := true }).lines[k].slot = .group g := by
    rw [Runtime.updUnit_lines]
    exact slot
  have off : r.OffGroup k u g ((r.updUnit u fun x => { x with aloneMark := true }).takeOffGroup k u g) :=
    (takeOffGroup_offGroup (by rw [updUnit_unit]; exact line) g).of_updUnit
  have record := takeOffGroup_unit k u g (r.updUnit u fun x => { x with aloneMark := true })
  rw [updUnit_unit] at record
  unfold Runtime.leaveToLoadAlone
  rw [leaveGroup_of_member marked member]
  generalize (r.updUnit u fun x => { x with aloneMark := true }).takeOffGroup k u g = x at off record
  have left := dissolveEmpty_hasLeft off.takeLoadStep_slot
  have kept := dissolveEmpty_keeps k (.refl (x.takeLoadStep u)) u
  obtain ⟨fails, waits⟩ := off.takeLoadStep
  by_cases fault : r.mode = .areaFault
  · rw [fails fault] at left kept ⊢
    obtain ⟨-, run, cause⟩ := off.failsOut .area
    refine ⟨left, ?_, fun _ => ⟨run, cause⟩, fun mode => absurd fault mode⟩
    rw [kept.field UnitRecord.aloneMark fun _ _ _ => rfl, failRun_aloneMark, record]
  · rw [waits fault] at left kept ⊢
    rw [updUnit_unit, record] at kept
    exact ⟨left, kept.field UnitRecord.aloneMark fun _ _ _ => rfl, fun e => absurd e fault,
      fun _ => ⟨kept.field UnitRecord.run fun _ _ _ => rfl, off.waitsForSlot⟩⟩

end Member

/-- A member's END exchange acts with the member off the list (R161). -/
theorem memberEnd_ending {k : LineIx} {u : UnitIx} {g : Group} {r : Runtime} (slot : r.lines[k].slot = .group g)
    (member : g.isMember u = true) (phase : g.phase = .ending) (e : TxnEnd) :
    r.memberEnd k u g e = ((r.takeOffGroup k u g).verdictEnd u e).dissolveEmpty k := by
  unfold Runtime.memberEnd
  rw [phase]
  exact leaveGroup_of_member slot member _

/-! ### The verdicts of an END round (R64, R161, log 27) -/

section Verdict

variable {k : LineIx} {u : UnitIx} {g : Group} {r x : Runtime} (h : r.OffGroup k u g x)

include h

/-- The member's run, restoring (R64, R65). -/
theorem Runtime.OffGroup.verdictGood :
    ∃ y : Runtime, r.OffGroup k u g y
      ∧ x.verdictEnd u (.reply (.verdict true)) = y.post u
          (if x.units[u].probePending = true ∧ x.units[u].contextPresent = false then .status else .put .restore)
      ∧ y.units[u].run = .restoring ∧ y.units[u].imageValid = true ∧ y.units[u].forceCold = false := by
  have valid := h.updUnit (f := fun z => { z with imageValid := true, forceCold := false, bootCount := none }) rfl rfl
  have restoring := valid.updUnit (f := fun z => { z.stopTimers with run := .restoring }) rfl rfl
  refine ⟨_, restoring, ?_, ?_⟩
  · have ask : (if (x.units[u].probePending && !x.units[u].contextPresent) = true then Work.status else .put .restore)
        = if x.units[u].probePending = true ∧ x.units[u].contextPresent = false then .status else .put .restore := by
      simp
    rw [← ask]
    rfl
  · rw [updUnit_unit, updUnit_unit]
    exact ⟨rfl, rfl, rfl⟩

/-- A first VERDICT BAD leads to another load (R64). -/
theorem Runtime.OffGroup.verdictBad (verdicts : x.units[u].verdicts = 0) :
    ∃ y : Runtime, r.OffGroup k u g y ∧ x.verdictEnd u (.reply (.verdict false)) = y.takeLoadStep u
      ∧ y.units[u].run = .loading ∧ y.units[u].imageValid = false ∧ y.units[u].verdicts = 1 := by
  have counted := h.updUnit (f := fun z => { z with verdicts := z.verdicts + 1 }) rfl rfl
  have loading := counted.updUnit (f := fun z => { z.stopTimers with run := .loading, imageValid := false }) rfl rfl
  refine ⟨_, loading, ?_, ?_⟩
  · refine if_pos ?_
    rw [updUnit_unit]
    dsimp only
    rw [verdicts]
    decide
  · rw [updUnit_unit, updUnit_unit]
    exact ⟨rfl, rfl, congrArg (· + 1) verdicts⟩

/-- A second VERDICT BAD ends the run (R64). -/
theorem Runtime.OffGroup.verdictWorse (verdicts : 1 ≤ x.units[u].verdicts) :
    ∃ y : Runtime, r.OffGroup k u g y ∧ x.verdictEnd u (.reply (.verdict false)) = y.failRun u .imageBad := by
  have counted := h.updUnit (f := fun z => { z with verdicts := z.verdicts + 1 }) rfl rfl
  refine ⟨_, counted, if_neg ?_⟩
  rw [updUnit_unit]
  dsimp only
  omega

/-- Whatever the END exchange ends with, the others keep the group until the member has acted. -/
theorem Runtime.OffGroup.verdictEnd_slot (e : TxnEnd) : (x.verdictEnd u e).lines[k].slot = .group (g.without u) := by
  cases e with
  | reply rep =>
    cases rep with
    | verdict good =>
      cases good with
      | true =>
        obtain ⟨y, off, ends, -⟩ := h.verdictGood
        rw [ends, post_slot]
        exact off.slot
      | false =>
        by_cases verdicts : x.units[u].verdicts = 0
        · obtain ⟨y, off, ends, -⟩ := h.verdictBad verdicts
          rw [ends]
          exact off.takeLoadStep_slot
        · obtain ⟨y, off, ends⟩ := h.verdictWorse (Nat.one_le_iff_ne_zero.2 verdicts)
          rw [ends]
          exact off.failRun_slot .imageBad
    | _ => exact h.failRun_slot .protocol
  | failed f => exact h.failRun_slot (causeOf f)
  | protocol => exact h.failRun_slot .protocol
  | sent => exact h.failRun_slot .protocol

/-- VERDICT GOOD: the unit restores, and its work joins before the begin works that the freed slot lets post (log 27). -/
theorem Runtime.OffGroup.takesGood {t : Runtime} (ends : t = (x.verdictEnd u (.reply (.verdict true))).dissolveEmpty k) :
    t.units[u].run = .restoring ∧ t.units[u].imageValid = true ∧ t.units[u].forceCold = false
      ∧ (r.LastOut k u g → t.lines[k].waitList = (r.lines[k]).withoutGroup ++ .single u
          (if x.units[u].probePending = true ∧ x.units[u].contextPresent = false then .status else .put .restore)
            :: r.begins k u false) := by
  obtain ⟨y, off, acts, run, valid, cold⟩ := h.verdictGood
  rw [acts] at ends
  subst ends
  have kept := dissolveEmpty_keeps k (post_keeps u
    (if x.units[u].probePending = true ∧ x.units[u].contextPresent = false then .status else .put .restore) (.refl y)) u
  exact ⟨(kept.field UnitRecord.run fun _ _ _ => rfl).trans run,
    (kept.field UnitRecord.imageValid fun _ _ _ => rfl).trans valid,
    (kept.field UnitRecord.forceCold fun _ _ _ => rfl).trans cold, off.postsFirst _⟩

/-- VERDICT BAD: another load at the first, the end of the run at the second (R64). -/
theorem Runtime.OffGroup.takesBad {t : Runtime} (ends : t = (x.verdictEnd u (.reply (.verdict false))).dissolveEmpty k) :
    (x.units[u].verdicts = 0 → r.mode = .areaFault → t.units[u].run = .failed ∧ t.units[u].cause = .area)
      ∧ (x.units[u].verdicts = 0 → r.mode ≠ .areaFault →
          t.units[u].run = .loading ∧ t.units[u].imageValid = false ∧ t.units[u].verdicts = 1 ∧ r.TakesStep k u g t)
      ∧ (1 ≤ x.units[u].verdicts → t.units[u].run = .failed ∧ t.units[u].cause = .imageBad) := by
  subst ends
  refine ⟨fun first fault => ?_, fun first mode => ?_, fun again => ?_⟩
  · obtain ⟨y, off, acts, -⟩ := h.verdictBad first
    obtain ⟨fails, -⟩ := off.takeLoadStep
    obtain ⟨-, failed⟩ := off.failsOut .area
    rw [acts, fails fault]
    exact failed
  · obtain ⟨y, off, acts, run, image, count⟩ := h.verdictBad first
    obtain ⟨-, waits⟩ := off.takeLoadStep
    rw [acts, waits mode]
    have kept := dissolveEmpty_keeps k (.refl (y.updUnit u fun z => { z with loadStep := .slotWait })) u
    rw [updUnit_unit] at kept
    exact ⟨(kept.field UnitRecord.run fun _ _ _ => rfl).trans run,
      (kept.field UnitRecord.imageValid fun _ _ _ => rfl).trans image,
      (kept.field UnitRecord.verdicts fun _ _ _ => rfl).trans count, off.waitsForSlot⟩
  · obtain ⟨y, off, acts⟩ := h.verdictWorse again
    obtain ⟨-, failed⟩ := off.failsOut .imageBad
    rw [acts]
    exact failed

end Verdict

/-! ### The tally (R158) -/

theorem updMember_eq {k : LineIx} {r : Runtime} {g : Group} (slot : r.lines[k].slot = .group g) (u : UnitIx)
    (f : Member → Member) : r.updMember k u f = r.setGroup k (g.updMember u f) := by
  unfold Runtime.updMember
  rw [groupRecord_eq_some.2 slot]

section Found

variable {u : UnitIx} {g : Group} {m : Member} (found : g.members.find? (fun x => decide (x.unit = u)) = some m)

include found

theorem isMember_of_find : g.isMember u = true :=
  List.any_eq_true.2
    ⟨m, List.mem_of_find?_eq_some found, List.find?_some (p := fun x : Member => decide (x.unit = u)) found⟩

theorem missedOf_eq : g.missedOf u = m.missed := by
  unfold Group.missedOf
  rw [found]

theorem silenceOf_eq : g.silenceOf u = m.silence := by
  unfold Group.silenceOf
  rw [found]

/-- A missed list with room takes the block (R158). -/
theorem missBlock_room {k : LineIx} {r : Runtime} (slot : r.lines[k].slot = .group g) (room : m.missed.length < 16)
    (silence : Nat) :
    r.missBlock k u g silence
      = r.setGroup k (g.updMember u fun x => { x with missed := x.missed ++ [g.block], silence := silence }) := by
  unfold Runtime.missBlock
  rw [missedOf_eq found, if_neg (show ¬ missedLimit ≤ _ from Nat.not_le.2 room), updMember_eq slot]

theorem missBlock_full {k : LineIx} {r : Runtime} (full : 16 ≤ m.missed.length) (silence : Nat) :
    r.missBlock k u g silence = r.leaveToLoadAlone k u := by
  unfold Runtime.missBlock
  rw [missedOf_eq found]
  exact if_pos full

theorem tally_noReply_heard {k : LineIx} {r : Runtime} (heard : m.silence < 2) :
    r.tally k u g (.failed .noReply) = r.missBlock k u g (m.silence + 1) := by
  unfold Runtime.tally
  dsimp only
  rw [silenceOf_eq found]
  exact if_neg (show ¬ 3 ≤ m.silence + 1 by omega)

theorem tally_noReply_silent {k : LineIx} {r : Runtime} (silent : 2 ≤ m.silence) :
    r.tally k u g (.failed .noReply) = r.failRun u .noReply := by
  unfold Runtime.tally
  dsimp only
  rw [silenceOf_eq found]
  exact if_pos (show 3 ≤ m.silence + 1 by omega)

theorem tally_damaged {k : LineIx} {r : Runtime} :
    r.tally k u g (.failed .damaged) = r.missBlock k u g m.silence := by
  rw [← silenceOf_eq found]
  rfl

end Found

/-- The acknowledged IMAGE_BEGIN is counted, and the result item is queued with the progress (R37, R168). -/
theorem beginAcked_record (u : UnitIx) (r : Runtime) :
    (r.beginAcked u).lines = r.lines ∧ (r.beginAcked u).units[u].loads = min (r.units[u].loads + 1) 65535
      ∧ (r.beginAcked u).units[u].confirmed = 0 ∧ (r.beginAcked u).units[u].progressDone = 0
      ∧ (r.beginAcked u).units[u].progressTotal = r.units[u].image.blockCount
      ∧ (r.mode ≠ .stopped → Item.unitResult u ∈ (r.beginAcked u).queue) := by
  have units : (r.beginAcked u).units[u] = (r.units[u]).beginAcked := by
    unfold Runtime.beginAcked
    rw [Runtime.enqueue_units, updUnit_unit]
  rw [units]
  refine ⟨?_, rfl, rfl, rfl, rfl, fun mode => mem_enqueue _ _ ?_⟩
  · unfold Runtime.beginAcked
    simp
  · rw [Runtime.updUnit_mode]
    exact mode

end Machine

end Sys2Proof

/-! PROOFS. What follows a round of a group (R156, R157, R160, R161, R164), and the obligation on its exchanges and rounds. -/

namespace Sys2Proof

namespace Machine

/-! ### The group's entry and its blocks (R156, R160, R164) -/

theorem listGroup_listed (l : LineRecord) : Entry.group ∈ l.listGroup.waitList := by
  unfold LineRecord.listGroup
  split
  · next listed => exact listed
  · exact List.mem_append_right _ (List.mem_singleton.2 rfl)

/-- The group's entry joins the list, and nothing else changes. -/
theorem listGroup_kept (l : LineRecord) : l.listGroup = { l with waitList := l.listGroup.waitList } := by
  unfold LineRecord.listGroup
  split <;> rfl

theorem setGroup_line (k : LineIx) (g : Group) (r : Runtime) :
    (r.setGroup k g).lines[k] = { r.lines[k] with slot := .group g } := updLine_line k _ r

theorem setGroup_fetchList (k : LineIx) (g : Group) (r : Runtime) : (r.setGroup k g).fetchList = r.fetchList :=
  Runtime.updLine_fetchList k _ r

/-- The group lists itself where the block is held, else it waits for the block's fetch; its slot and its buffers stay. -/
theorem awaitBlock_line (k : LineIx) (b : Nat) (r : Runtime) :
    (r.awaitBlock k b).lines[k].slot = r.lines[k].slot
      ∧ ((r.awaitBlock k b).lines[k].buffer0 = r.lines[k].buffer0
        ∧ (r.awaitBlock k b).lines[k].buffer1 = r.lines[k].buffer1)
      ∧ (r.awaitBlock k b).fetchList = r.fetchList
      ∧ (((r.lines[k]).heldBlock b).isSome = true → Entry.group ∈ (r.awaitBlock k b).lines[k].waitList)
      ∧ (((r.lines[k]).heldBlock b).isSome = false →
          (r.awaitBlock k b).lines[k].waitBlock = some b
            ∧ (r.awaitBlock k b).lines[k].waitList = r.lines[k].waitList) := by
  unfold Runtime.awaitBlock
  by_cases held : ((r.lines[k]).heldBlock b).isSome = true
  · rw [if_pos held, updLine_line, Runtime.updLine_fetchList]
    refine ⟨listGroup_slot _, ?_, rfl, fun _ => listGroup_listed _, fun missing => ?_⟩
    · rw [listGroup_kept]
      exact ⟨rfl, rfl⟩
    · rw [held] at missing
      cases missing
  · rw [if_neg held, updLine_line, Runtime.updLine_fetchList]
    exact ⟨rfl, ⟨rfl, rfl⟩, rfl, fun e => absurd e held, fun _ => ⟨rfl, rfl⟩⟩

theorem holds_eq_true {b : Nat} {x : Option Block} : holds b x = true ↔ ∃ y, x = some y ∧ y.index = b := by
  cases x <;> simp [holds]

theorem heldBlock_congr {l m : LineRecord} (zero : l.buffer0 = m.buffer0) (one : l.buffer1 = m.buffer1) (b : Nat) :
    l.heldBlock b = m.heldBlock b := by
  unfold LineRecord.heldBlock
  rw [zero, one]

/-- The dropped block is held no more. -/
theorem heldBlock_dropBlock_own (b : Nat) (l : LineRecord) : (l.dropBlock b).heldBlock b = none := by
  have out : ∀ x : Option Block, holds b (if holds b x then none else x) = false := by
    intro x
    split
    · rfl
    · next other => exact Bool.eq_false_iff.2 other
  unfold LineRecord.heldBlock LineRecord.dropBlock
  dsimp only
  rw [out, out]
  rfl

/-- A block held stays held while another is dropped. -/
theorem heldBlock_dropBlock_other {b c : Nat} (ne : c ≠ b) (l : LineRecord) :
    (l.dropBlock b).heldBlock c = l.heldBlock c := by
  have same : ∀ x : Option Block, holds c (if holds b x then none else x) = holds c x
      ∧ (holds c x = true → (if holds b x then none else x) = x) := by
    intro x
    split
    · next own =>
      obtain ⟨y, rfl, index⟩ := holds_eq_true.1 own
      have other : holds c (some y) = false := decide_eq_false fun e => ne (e.symm.trans index)
      rw [other]
      exact ⟨rfl, nofun⟩
    · exact ⟨rfl, fun _ => rfl⟩
  obtain ⟨held0, kept0⟩ := same l.buffer0
  obtain ⟨held1, kept1⟩ := same l.buffer1
  unfold LineRecord.heldBlock LineRecord.dropBlock
  dsimp only
  rw [held0, held1]
  split
  · next own => rw [kept0 own]
  · split
    · next own => rw [kept1 own]
    · rfl

/-- The line asks for a block of its group's transfer (R164). -/
theorem askBlock_group {k : LineIx} {g : Group} {r : Runtime} (slot : r.lines[k].slot = .group g) (b : Nat) (first : Bool) :
    ∃ q, (r.askBlock k b first).fetchList = r.fetchList ++ [q] ∧ q.line = k ∧ q.block = b ∧ q.firstPass = first := by
  have image : r.transferImage k = some g.image := by
    unfold Runtime.transferImage
    rw [slot]
  unfold Runtime.askBlock
  rw [image]
  exact ⟨_, rfl, rfl, rfl, rfl⟩

/-! ### The round by its phase (R156, R157, R160, R161) -/

/-- The group's record once its round has ended. -/
def Group.ended (g : Group) : Group := { g with inRound := false, todo := [] }

section Round

variable {k : LineIx} {g : Group} {r : Runtime} (slot : r.lines[k].slot = .group g)

include slot

theorem endRound_begin (phase : g.phase = .begin) :
    r.endRound k = (r.setGroup k { g.ended with phase := .blocks, block := 0 }).awaitBlock k 0 := by
  obtain ⟨members, tag, image, _, block, inRound, todo⟩ := g
  cases phase
  unfold Runtime.endRound
  rw [groupRecord_eq_some.2 slot]
  rfl

theorem endRound_blocks (phase : g.phase = .blocks) :
    r.endRound k = if g.block + 1 < g.image.blockCount then
        ((r.updLine k (LineRecord.dropBlock g.block)).setGroup k { g.ended with block := g.block + 1 }).awaitBlock k
          (g.block + 1)
      else (r.updLine k (LineRecord.dropBlock g.block)).repairOrEnd k g.ended := by
  obtain ⟨members, tag, image, _, block, inRound, todo⟩ := g
  cases phase
  unfold Runtime.endRound
  rw [groupRecord_eq_some.2 slot]
  rfl

theorem endRound_repair (phase : g.phase = .repair) :
    r.endRound k = (r.updLine k fun l => { l with buffer0 := none, buffer1 := none }).repairOrEnd k g.ended := by
  obtain ⟨members, tag, image, _, block, inRound, todo⟩ := g
  cases phase
  unfold Runtime.endRound
  rw [groupRecord_eq_some.2 slot]
  rfl

theorem endRound_ending (phase : g.phase = .ending) :
    r.endRound k = (r.setGroup k { g.ended with phase := .ending }).updLine k LineRecord.listGroup := by
  obtain ⟨members, tag, image, _, block, inRound, todo⟩ := g
  cases phase
  unfold Runtime.endRound
  rw [groupRecord_eq_some.2 slot]
  rfl

end Round

/-- The phase becomes END, and the group's entry joins (R161). -/
theorem listEnding_line (k : LineIx) (g : Group) (r : Runtime) :
    let t := (r.setGroup k g).updLine k LineRecord.listGroup
    t.lines[k].slot = .group g ∧ Entry.group ∈ t.lines[k].waitList ∧ t.fetchList = r.fetchList
      ∧ t.lines[k].buffer0 = r.lines[k].buffer0 ∧ t.lines[k].buffer1 = r.lines[k].buffer1 := by
  dsimp only
  rw [updLine_line, Runtime.updLine_fetchList, setGroup_fetchList]
  refine ⟨?_, listGroup_listed _, rfl, ?_⟩
  · rw [listGroup_slot, setGroup_line]
  · rw [listGroup_kept, setGroup_line]
    exact ⟨rfl, rfl⟩

/-- What follows the tally of the last block or a repair round; the buffers stay as they are (R160, R164). -/
theorem repairOrEnd_line (k : LineIx) (g : Group) (r : Runtime) :
    let t := r.repairOrEnd k g
    (t.lines[k].buffer0 = r.lines[k].buffer0 ∧ t.lines[k].buffer1 = r.lines[k].buffer1)
      ∧ (g.nextRepair = none → t.lines[k].slot = .group { g with phase := .ending } ∧ Entry.group ∈ t.lines[k].waitList
          ∧ t.fetchList = r.fetchList)
      ∧ ∀ v b, g.nextRepair = some (v, b) → t.lines[k].slot = .group { g with phase := .repair }
          ∧ (∃ q, t.fetchList = r.fetchList ++ [q] ∧ q.line = k ∧ q.block = b ∧ q.firstPass = false)
          ∧ (((r.lines[k]).heldBlock b).isSome = false → t.lines[k].waitBlock = some b) := by
  dsimp only
  unfold Runtime.repairOrEnd
  cases next : g.nextRepair with
  | none =>
    obtain ⟨slot, listed, fetches, buffers⟩ := listEnding_line k { g with phase := .ending } r
    exact ⟨buffers, fun _ => ⟨slot, listed, fetches⟩, fun _ _ e => nomatch e⟩
  | some found =>
    obtain ⟨v, b⟩ := found
    have set := setGroup_line k { g with phase := .repair } r
    obtain ⟨q, fetches, asked⟩ := askBlock_group (g := { g with phase := .repair }) (by rw [set]) b false
    have lines := askBlock_lines k b false (r.setGroup k { g with phase := .repair })
    obtain ⟨slot, buffers, kept, -, missing⟩ := awaitBlock_line k b
      ((r.setGroup k { g with phase := .repair }).askBlock k b false)
    dsimp only
    rw [lines, set] at slot buffers missing
    rw [fetches, setGroup_fetchList] at kept
    refine ⟨buffers, fun e => (nomatch e), fun v' b' e => ?_⟩
    cases e
    exact ⟨slot, ⟨q, kept, asked⟩, fun none => (missing none).1⟩

/-- Settles O59: the outcomes of a member's exchange by phase, then what follows a round by phase. -/
theorem tallyIsTaken : Obligations.TallyIsTaken := by
  refine ⟨fun k u g m r slot found line => ?member, fun k g r slot => ?round⟩
  case member =>
    have member := isMember_of_find found
    have fails : ∀ c, Runtime.FailsOut k u g c (r.failRun u c) := failRun_failsOut line slot member
    have alone : r.LoadsAlone k u g (r.leaveToLoadAlone k u) := leaveToLoadAlone_loadsAlone line slot member
    refine ⟨fun v => ?without, ?confirmed, fun room => ?room, fun silent => ?silent, fun full => ?full, fails .protocol,
      fun blocks e => ?blocks, fun begin => ?begin, fun repair => ?repair, fun ending => ?ending⟩
    case without =>
      rw [Group.without, List.mem_filter, decide_eq_true_iff]
    case confirmed =>
      rw [← updMember_eq slot]
      rfl
    case room =>
      refine ⟨missBlock_room found slot room 0, ?_, rfl, fun heard => ?_⟩
      · rw [tally_damaged found]
        exact missBlock_room found slot room m.silence
      · rw [tally_noReply_heard found heard]
        exact missBlock_room found slot room (m.silence + 1)
    case silent =>
      rw [tally_noReply_silent found silent]
      exact fails .noReply
    case full =>
      have leaves := fun silence => missBlock_full found (k := k) (r := r) full silence
      have damaged : r.tally k u g (.failed .damaged) = r.leaveToLoadAlone k u := (tally_damaged found).trans (leaves _)
      refine ⟨?_, ?_, ?_, fun heard => ?_⟩
      · rw [show r.tally k u g (.reply (.blockBad g.block)) = _ from leaves 0]
        exact alone
      · rw [damaged]
        exact alone
      · rw [show r.tally k u g (.failed .lineFault) = _ from damaged]
        exact alone
      · rw [tally_noReply_heard found heard, leaves]
        exact alone
    case blocks =>
      unfold Runtime.memberEnd
      rw [blocks]
    case begin =>
      unfold Runtime.memberEnd
      rw [begin]
      exact ⟨beginAcked_record u r, fun _ => alone, fails .protocol⟩
    case repair =>
      unfold Runtime.memberEnd
      rw [repair]
      refine ⟨fun b => ?_, fails .noReply, fails .damaged, fails .lineFault, fails .blockRejected, fails .protocol⟩
      rw [← updMember_eq slot]
    case ending =>
      have off := takeOffGroup_offGroup line g
      have record := takeOffGroup_unit k u g r
      have ends := memberEnd_ending slot member ending
      generalize r.takeOffGroup k u g = x at off record ends
      have good := off.takesGood (ends (.reply (.verdict true)))
      have bad := off.takesBad (ends (.reply (.verdict false)))
      rw [record] at good bad
      have failed : ∀ f, Runtime.FailsOut k u g (causeOf f) (r.memberEnd k u g (.failed f)) := fun f => by
        rw [ends]
        exact off.failsOut (causeOf f)
      refine ⟨fun e => ?_, good, bad, failed .noReply, failed .damaged, failed .lineFault, ?_⟩
      · rw [ends]
        exact dissolveEmpty_hasLeft (off.verdictEnd_slot e)
      · rw [ends]
        exact off.failsOut .protocol
  case round =>
    refine ⟨fun begin => ?begin, fun blocks => ?blocks, fun repair => ?repair, fun ending => ?ending⟩
    case begin =>
      rw [endRound_begin slot begin]
      have set := setGroup_line k { g.ended with phase := .blocks, block := 0 } r
      obtain ⟨kept, -, -, held, missing⟩ := awaitBlock_line k 0
        (r.setGroup k { g.ended with phase := .blocks, block := 0 })
      rw [set] at kept held missing
      exact ⟨kept, held, missing⟩
    case blocks =>
      have dropped := updLine_line k (LineRecord.dropBlock g.block) r
      have fetches := Runtime.updLine_fetchList k (LineRecord.dropBlock g.block) r
      rw [endRound_blocks slot blocks]
      generalize r.updLine k (LineRecord.dropBlock g.block) = x at dropped fetches
      have empty : (x.lines[k]).heldBlock g.block = none := by
        rw [dropped]
        exact heldBlock_dropBlock_own g.block _
      have others : (x.lines[k]).heldBlock (g.block + 1) = (r.lines[k]).heldBlock (g.block + 1) := by
        rw [dropped]
        exact heldBlock_dropBlock_other (Nat.succ_ne_self _) _
      by_cases more : g.block + 1 < g.image.blockCount
      · rw [if_pos more]
        have set := setGroup_line k { g.ended with block := g.block + 1 } x
        obtain ⟨kept, ⟨zero, one⟩, -, held, missing⟩ := awaitBlock_line k (g.block + 1)
          (x.setGroup k { g.ended with block := g.block + 1 })
        rw [set] at kept zero one held missing
        have same := heldBlock_congr (l := { x.lines[k] with slot := .group { g.ended with block := g.block + 1 } })
          (m := x.lines[k]) rfl rfl (g.block + 1)
        rw [same, others] at held missing
        refine ⟨?_, fun _ => ⟨kept, held, fun none => ?_⟩, fun no => absurd more (Nat.not_lt.2 no),
          fun _ _ no => absurd more (Nat.not_lt.2 no)⟩
        · rw [heldBlock_congr (m := x.lines[k]) zero one]
          exact empty
        · obtain ⟨waits, list⟩ := missing none
          rw [dropped] at list
          exact ⟨waits, list⟩
      · rw [if_neg more]
        obtain ⟨⟨zero, one⟩, ends, repairs⟩ := repairOrEnd_line k g.ended x
        rw [fetches] at ends repairs
        refine ⟨?_, fun e => absurd e more, fun _ none => ends none, fun v b _ some => ?_⟩
        · rw [heldBlock_congr zero one]
          exact empty
        · obtain ⟨kept, asked, -⟩ := repairs v b some
          exact ⟨kept, asked⟩
    case repair =>
      have emptied := updLine_line k (fun l => { l with buffer0 := none, buffer1 := none }) r
      have fetches := Runtime.updLine_fetchList k (fun l => { l with buffer0 := none, buffer1 := none }) r
      rw [endRound_repair slot repair]
      generalize r.updLine k (fun l => { l with buffer0 := none, buffer1 := none }) = x at emptied fetches
      obtain ⟨⟨zero, one⟩, ends, repairs⟩ := repairOrEnd_line k g.ended x
      rw [emptied] at zero one repairs
      rw [fetches] at ends repairs
      refine ⟨zero, one, ends, fun v b some => ?_⟩
      obtain ⟨kept, asked, waits⟩ := repairs v b some
      exact ⟨⟨kept, asked⟩, waits rfl⟩
    case ending =>
      rw [endRound_ending slot ending]
      obtain ⟨kept, listed, fetches, -⟩ := listEnding_line k { g.ended with phase := .ending } r
      exact ⟨kept, listed, fetches⟩

end Machine

end Sys2Proof
